-- ==== Sys2Proof/Word.lean ====
section
/-!
DEFINITION. Word.lean: the widths of PIPET-FD's words and the two kinds of word its input port carries.
-/
namespace Sys2Proof

/-- One byte of the host's word buffer; the block itself never sees bytes (20_memory.md R61). -/
abbrev Byte := BitVec 8

/-- One 16-bit unit of the wire stream (00_scope.md R10, 30_encoding.md R80). -/
abbrev Word := BitVec 16

/-- One 64-bit host command word (30_encoding.md R88). -/
abbrev CmdWord := BitVec 64

/-- The 40-bit response of a reading command (30_encoding.md R95). -/
abbrev Resp := BitVec 40

/-- The five words of one frame, word index 0 first (30_encoding.md R80). -/
abbrev Frame := Vector Word 5

/-- A word on the input port: a command word, or a frame word standing alone.
A command is always 64 bits and a frame word always 16 (30_encoding.md R98).
DESIGN CHOICE (log entry 6): a lone frame word stands for the PUSH that carries it. -/
inductive PortWord where
  | command (w : CmdWord)
  | frame (w : Word)
  deriving DecidableEq, Repr

end Sys2Proof
end

