-- ==== Sys2Proof/Syntax.lean ====
section
/-!
DEFINITION. Syntax.lean: one constructor per row of spec/opcode_table.json.
-/
namespace Sys2Proof

/-- The instructions of PIPET-FD.
A command keeps its SEL and DATA fields even where the command ignores them (30_encoding.md R89),
so that no bit of a command word is dropped by decoding (log entry 19).
A frame word keeps the 13 bits below its check field (30_encoding.md R81, R85). -/
inductive Instr where
  /-- `NOP`, OPC 0x00 (44_stream_control.md R242). -/
  | nop (sel : BitVec 8) (data : BitVec 40)
  /-- `RESET_RUN`, OPC 0x01 (44_stream_control.md R243). -/
  | resetRun (sel : BitVec 8) (data : BitVec 40)
  /-- `WRCFG`, OPC 0x02 (44_stream_control.md R244). -/
  | wrcfg (sel : BitVec 8) (data : BitVec 40)
  /-- `RDCFG`, OPC 0x03 (44_stream_control.md R245). -/
  | rdcfg (sel : BitVec 8) (data : BitVec 40)
  /-- `PUSH`, OPC 0x04 (44_stream_control.md R246). -/
  | push (sel : BitVec 8) (data : BitVec 40)
  /-- `END`, OPC 0x05 (44_stream_control.md R251). -/
  | endRun (sel : BitVec 8) (data : BitVec 40)
  /-- `RDDIAG`, OPC 0x06 (44_stream_control.md R252). -/
  | rddiag (sel : BitVec 8) (data : BitVec 40)
  /-- `RDSTAT`, OPC 0x07 (44_stream_control.md R253). -/
  | rdstat (sel : BitVec 8) (data : BitVec 40)
  /-- `RESERVED_OPC`, any OPC from 0x08 to 0xFF with any RSV (60_exceptions.md R303). -/
  | reservedOpc (opc sel rsv : BitVec 8) (data : BitVec 40)
  /-- `FW_HDR`, check value 4 (30_encoding.md R85). -/
  | fwHdr (payload : BitVec 13)
  /-- `FW_CHA`, check value 0 (30_encoding.md R85). -/
  | fwCha (payload : BitVec 13)
  /-- `FW_CHB`, check value 1 (30_encoding.md R85). -/
  | fwChb (payload : BitVec 13)
  /-- `FW_CHC`, check value 2 (30_encoding.md R85). -/
  | fwChc (payload : BitVec 13)
  /-- `FW_CHD`, check value 3 (30_encoding.md R85). -/
  | fwChd (payload : BitVec 13)
  /-- `FW_DUMMY`, check value 5 (30_encoding.md R85). -/
  | fwDummy (payload : BitVec 13)
  /-- `FW_RSV6`, check value 6 (30_encoding.md R85). -/
  | fwRsv6 (payload : BitVec 13)
  /-- `FW_RSV7`, check value 7 (30_encoding.md R85). -/
  | fwRsv7 (payload : BitVec 13)
  deriving DecidableEq, Repr

end Sys2Proof
end

