-- ==== Sys2Proof/WellFormed.lean ====
section
/-!
DEFINITION. WellFormed.lean: which terms of Instr an encoding stands for.
-/
namespace Sys2Proof

/-- A term that some port word encodes. The one check: `RESERVED_OPC` stands for OPC 0x08 and above only
(30_encoding.md R89, R90 (a)). Every other combination of field values is an encoding; whether the
command is LEGAL (30_encoding.md R90 (c) to (e)) is tested when it runs. -/
def Instr.wellFormed : Instr → Bool
  | .reservedOpc opc _ _ _ => decide (8 ≤ opc.toNat)
  | .nop _ _ | .resetRun _ _ | .wrcfg _ _ | .rdcfg _ _ => true
  | .push _ _ | .endRun _ _ | .rddiag _ _ | .rdstat _ _ => true
  | .fwHdr _ | .fwCha _ | .fwChb _ | .fwChc _ => true
  | .fwChd _ | .fwDummy _ | .fwRsv6 _ | .fwRsv7 _ => true

/-- The proposition form of `Instr.wellFormed`. -/
abbrev Instr.WellFormed (i : Instr) : Prop := i.wellFormed = true

end Sys2Proof
end

