-- ==== Sys2Proof/Decode.lean ====
section
/-!
DEFINITION. Decode.lean: port words to instructions and back (30_encoding.md R85, R88, R89).
-/
namespace Sys2Proof

/-- Why a port word is no row of the opcode table.
`rsvNonzero opc`: OPC is below 0x08 and RSV is not 0 (30_encoding.md R90 (b)). The word is still
a command the block answers: the step takes the illegal command's effect (44_stream_control.md R241). -/
inductive DecodeError where
  | rsvNonzero (opc : BitVec 8)
  deriving DecidableEq, Repr

/-! ### The fields of a command word (30_encoding.md R88) -/

/-- `OPC = cmd[63:56]`. -/
def cmdOpc (w : CmdWord) : BitVec 8 := w.extractLsb' 56 8

/-- `SEL = cmd[55:48]`. -/
def cmdSel (w : CmdWord) : BitVec 8 := w.extractLsb' 48 8

/-- `RSV = cmd[47:40]`. -/
def cmdRsv (w : CmdWord) : BitVec 8 := w.extractLsb' 40 8

/-- `DATA = cmd[39:0]`. -/
def cmdData (w : CmdWord) : BitVec 40 := w.extractLsb' 0 40

/-- The check field of a frame word, bits 15:13 (30_encoding.md R81). -/
def wordCheck (w : Word) : BitVec 3 := w.extractLsb' 13 3

/-- The 13 bits of a frame word below its check field. -/
def wordPayload (w : Word) : BitVec 13 := w.extractLsb' 0 13

/-! ### Decoding -/

/-- A command word to its instruction (44_stream_control.md R241, first part; 30_encoding.md R89). -/
def decodeCommand (w : CmdWord) : Except DecodeError Instr :=
  let sel := cmdSel w
  let data := cmdData w
  if 8 ≤ (cmdOpc w).toNat then .ok (.reservedOpc (cmdOpc w) sel (cmdRsv w) data)
  else if cmdRsv w ≠ 0 then .error (.rsvNonzero (cmdOpc w))
  else match (cmdOpc w).toNat with
    | 0 => .ok (.nop sel data)
    | 1 => .ok (.resetRun sel data)
    | 2 => .ok (.wrcfg sel data)
    | 3 => .ok (.rdcfg sel data)
    | 4 => .ok (.push sel data)
    | 5 => .ok (.endRun sel data)
    | 6 => .ok (.rddiag sel data)
    | _ => .ok (.rdstat sel data)

/-- A frame word to its class; every one of the 2^16 words has one (30_encoding.md R85). -/
def decodeFrameWord (w : Word) : Instr :=
  let payload := wordPayload w
  match (wordCheck w).toNat with
  | 0 => .fwCha payload
  | 1 => .fwChb payload
  | 2 => .fwChc payload
  | 3 => .fwChd payload
  | 4 => .fwHdr payload
  | 5 => .fwDummy payload
  | 6 => .fwRsv6 payload
  | _ => .fwRsv7 payload

/-- Any port word to its instruction, or the name of what is wrong with it. -/
def decode : PortWord → Except DecodeError Instr
  | .command w => decodeCommand w
  | .frame w => .ok (decodeFrameWord w)

/-! ### Encoding -/

/-- `OPC SEL RSV DATA` put together (30_encoding.md R88, R96). -/
def commandWord (opc sel rsv : BitVec 8) (data : BitVec 40) : CmdWord :=
  opc ++ sel ++ rsv ++ data

/-- A frame word from its check value and the 13 bits below it (30_encoding.md R81). -/
def frameWord (check : BitVec 3) (payload : BitVec 13) : Word := check ++ payload

/-- The port word of an instruction (30_encoding.md R85, R89). -/
def encode : Instr → PortWord
  | .nop sel data => .command (commandWord 0x00 sel 0 data)
  | .resetRun sel data => .command (commandWord 0x01 sel 0 data)
  | .wrcfg sel data => .command (commandWord 0x02 sel 0 data)
  | .rdcfg sel data => .command (commandWord 0x03 sel 0 data)
  | .push sel data => .command (commandWord 0x04 sel 0 data)
  | .endRun sel data => .command (commandWord 0x05 sel 0 data)
  | .rddiag sel data => .command (commandWord 0x06 sel 0 data)
  | .rdstat sel data => .command (commandWord 0x07 sel 0 data)
  | .reservedOpc opc sel rsv data => .command (commandWord opc sel rsv data)
  | .fwHdr payload => .frame (frameWord 4 payload)
  | .fwCha payload => .frame (frameWord 0 payload)
  | .fwChb payload => .frame (frameWord 1 payload)
  | .fwChc payload => .frame (frameWord 2 payload)
  | .fwChd payload => .frame (frameWord 3 payload)
  | .fwDummy payload => .frame (frameWord 5 payload)
  | .fwRsv6 payload => .frame (frameWord 6 payload)
  | .fwRsv7 payload => .frame (frameWord 7 payload)

/-! ### What later files ask of an instruction -/

/-- The word of the input stream an instruction carries: `DATA[15:0]` of a PUSH (30_encoding.md R89,
which ignores `DATA[39:16]`), and a frame word itself. -/
def Instr.pushedWord : Instr → Option Word
  | .push _ data => some (data.extractLsb' 0 16)
  | .fwHdr payload => some (frameWord 4 payload)
  | .fwCha payload => some (frameWord 0 payload)
  | .fwChb payload => some (frameWord 1 payload)
  | .fwChc payload => some (frameWord 2 payload)
  | .fwChd payload => some (frameWord 3 payload)
  | .fwDummy payload => some (frameWord 5 payload)
  | .fwRsv6 payload => some (frameWord 6 payload)
  | .fwRsv7 payload => some (frameWord 7 payload)
  | .nop _ _ | .resetRun _ _ | .wrcfg _ _ | .rdcfg _ _ => none
  | .endRun _ _ | .rddiag _ _ | .rdstat _ _ | .reservedOpc _ _ _ _ => none

/-- The column 'legal at word index' of 30_encoding.md R85: whether a word of this class is free of a
framing violation at word index `i`. A command is no frame word and is legal at none. -/
def Instr.legalAtIndex (i : Fin 5) : Instr → Bool
  | .fwHdr _ => i == 0
  | .fwCha _ => i == 1
  | .fwChb _ => i == 2
  | .fwChc _ => i == 3
  | .fwChd _ => i == 4
  | .fwDummy _ => true
  | .fwRsv6 _ | .fwRsv7 _ => false
  | .nop _ _ | .resetRun _ _ | .wrcfg _ _ | .rdcfg _ _ => false
  | .push _ _ | .endRun _ _ | .rddiag _ _ | .rdstat _ _ | .reservedOpc _ _ _ _ => false

/-- The PUSH of a word, with the ignored bits 0 (30_encoding.md R96). -/
def pushOf (w : Word) : Instr := .push 0 (w.setWidth 40)

/-- The opcodes that return a response (30_encoding.md R89, 60_exceptions.md R304). -/
def opcReads (opc : BitVec 8) : Bool := opc == 0x03 || opc == 0x06 || opc == 0x07

/-! ### The host's numbering of opcode-table rows -/

/-- The port word whose bits are `w`, given in `nbits` bits: 16 bits are a frame word, any other
width up to 64 a command word whose upper bits are 0 (log entry 26). -/
def portWordOf (nbits w : Nat) : Option PortWord :=
  if nbits = 16 then some (.frame (BitVec.ofNat 16 w))
  else if nbits ≤ 64 then some (.command (BitVec.ofNat 64 w))
  else none

/-- The instruction the decoder reads from the bits `w`. -/
def decodeTableWord (nbits w : Nat) : Option Instr :=
  match portWordOf nbits w with
  | none => none
  | some p =>
    match decode p with
    | .ok i => some i
    | .error _ => none

end Sys2Proof
end

