-- ==== Sys2Proof/Machine/Records.lean ====
section
/-!
DEFINITION. Records.lean: the records the datapath registers carry (10_state.md R22 to R44).
-/
namespace Sys2Proof.Machine

/-- The decoded record of one frame (10_state.md R43). `chan[0]` is channelA, `chan[3]` channelD (00_scope.md R9). -/
structure Single where
  marker : BitVec 6
  flag : BitVec 6
  delayed : BitVec 1
  hold : Vector (BitVec 1) 4
  check : Vector (BitVec 3) 5
  chan : Vector (BitVec 12) 4
  sum : BitVec 32
  deriving DecidableEq, Repr, Inhabited

/-- A paired record (10_state.md R44): side_a, side_b, position, and the reserved status. -/
structure Event where
  a : Single
  b : Single
  position : BitVec 32
  status : BitVec 16
  deriving DecidableEq, Repr, Inhabited

/-- The two sides of an Event (42_validator.md R170). -/
inductive Side where
  | a
  | b
  deriving DecidableEq, Repr

/-- The record of one side. -/
def Event.side (e : Event) : Side → Single
  | .a => e.a
  | .b => e.b

/-- PHASE (10_state.md R30). -/
inductive Phase where
  | idle
  | run
  | doneOk
  | doneErr
  deriving DecidableEq, Repr

/-- The three checks of the validator (10_state.md R39). -/
inductive Check where
  | sig
  | pair
  | cont
  deriving DecidableEq, Repr

/-- The two kinds of fatal structural error (60_exceptions.md R300). -/
inductive MalformedInput where
  | wordcount
  | odd
  deriving DecidableEq, Repr

/-- The policies of CFG_DELAYED and CFG_FLAGGED (10_state.md R22, R23). The code 3 is never stored
(30_encoding.md R92), so it is no value of this type (log entry 15). -/
inductive Policy where
  | requireFalse
  | requireTrue
  | any
  deriving DecidableEq, Repr

/-- The five bounded quantities (10_state.md R26). -/
inductive Quantity where
  | chanA
  | chanB
  | chanC
  | chanD
  | sum
  deriving DecidableEq, Repr

/-- A crop or bound register: the enable bit and the 32-bit value (10_state.md R24, R26). -/
structure EnReg where
  en : Bool
  val : BitVec 32
  deriving DecidableEq, Repr

/-- A bank of five registers, one per quantity (10_state.md R26, R27). -/
structure Bank where
  chanA : EnReg
  chanB : EnReg
  chanC : EnReg
  chanD : EnReg
  sum : EnReg
  deriving DecidableEq, Repr

/-- The bank's register of a quantity. -/
def Bank.get (b : Bank) : Quantity → EnReg
  | .chanA => b.chanA
  | .chanB => b.chanB
  | .chanC => b.chanC
  | .chanD => b.chanD
  | .sum => b.sum

/-- The bank with the register of one quantity replaced. -/
def Bank.set (b : Bank) (q : Quantity) (r : EnReg) : Bank :=
  match q with
  | .chanA => { b with chanA := r }
  | .chanB => { b with chanB := r }
  | .chanC => { b with chanC := r }
  | .chanD => { b with chanD := r }
  | .sum => { b with sum := r }

/-- The writable configuration registers (10_state.md R22 to R27). -/
structure Cfg where
  delayed : Policy
  flagged : Policy
  preBegin : EnReg
  preEnd : EnReg
  postBegin : EnReg
  postEnd : EnReg
  lo : Bank
  hi : Bank
  deriving DecidableEq, Repr

/-- The diagnostics of one check: DIAG_CNT and DIAG_SAMPLE (10_state.md R39, R40). -/
structure Diag where
  cnt : BitVec 36
  sample : Vector (BitVec 36) 5
  deriving DecidableEq, Repr

end Sys2Proof.Machine
end

