-- ==== Sys2Proof/Config.lean ====
section
/-!
DEFINITION. Config.lean: what a build of the block fixes (00_scope.md R4), and the free values.
-/
namespace Sys2Proof

/-- The build parameter LAYOUT: bit offsets of the non-check fields inside their words (30_encoding.md R82). -/
structure Layout where
  offMarker : Nat
  offFlag : Nat
  offDelayed : Nat
  offChan : Nat
  offHold : Nat
  deriving DecidableEq, Repr

/-- The build parameter HOLD_MARKER_CMP (42_validator.md R170). -/
inductive HoldMarkerCmp where
  | effective
  | perSide
  deriving DecidableEq, Repr

/-- The parameter WIRE_BYTE_ORDER (20_memory.md R61). It is the host's, and the spec gives it no default,
so it is an argument of the host's conversion functions and no part of a build (log entry 2). -/
inductive ByteOrder where
  | little
  | big
  deriving DecidableEq, Repr

/-- The parameters one build of the block fixes. No command changes them (70_reset_and_hazards.md R330). -/
structure Build where
  layout : Layout
  holdMarkerCmp : HoldMarkerCmp
  deriving DecidableEq, Repr

/-! ### Free values (10_state.md R32, R34, R36, R40; log entry 9)

`RESET_RUN` and a power-on reset leave the guarded registers unspecified. Each constant below has no body: it gives
the contents of draw number `n`, and nothing can be proved of them. -/

/-- FRAME_BUF after draw `n`. -/
opaque Config.freeFrame (n : Nat) : Frame

/-- PEND_A after draw `n`. -/
opaque Config.freeSingle (n : Nat) : Machine.Single

/-- PREV after draw `n`. -/
opaque Config.freeEvent (n : Nat) : Machine.Event

/-- DIAG_SAMPLE[SIG] after draw `n`. -/
opaque Config.freeSigSample (n : Nat) : Vector (BitVec 36) 5

/-- DIAG_SAMPLE[PAIR] after draw `n`. -/
opaque Config.freePairSample (n : Nat) : Vector (BitVec 36) 5

/-- DIAG_SAMPLE[CONT] after draw `n`. -/
opaque Config.freeContSample (n : Nat) : Vector (BitVec 36) 5

end Sys2Proof
end

