-- ==== Sys2Proof/Machine/Params.lean ====
section
/-!
DEFINITION. Params.lean: the constants of 00_scope.md R4, the build defaults, and the reset configuration.
-/
namespace Sys2Proof.Machine

/-- DUMMY_FLAG, the no-flag sentinel (00_scope.md R4). -/
def dummyFlag : BitVec 6 := 15

/-- DUMMY_CHECK, the don't-care signature value (00_scope.md R4). -/
def dummyCheck : BitVec 3 := 5

/-- EXPECTED_CHECK, by word index (00_scope.md R4; the literal mapping of 91_not_in_source.md N18). -/
def expectedCheck : Vector (BitVec 3) 5 := #v[4, 0, 1, 2, 3]

/-- SAMPLE_DEPTH (00_scope.md R4). -/
def sampleDepth : Nat := 5

/-- N_RAW_MAX, the most words one run may push (00_scope.md R4). -/
def nRawMax : Nat := 2 ^ 36 - 1

/-- N_EVT_MAX, the most Events one run may form (00_scope.md R4). -/
def nEvtMax : Nat := 2 ^ 32

/-- LAYOUT_DEFAULT (30_encoding.md R83), the spec's own default. -/
def layoutDefault : Layout :=
  { offMarker := 0, offFlag := 6, offDelayed := 12, offChan := 0, offHold := 12 }

/-- The build a model that is given no parameters uses (30_encoding.md R83, 42_validator.md R170). -/
def buildDefault : Build := { layout := layoutDefault, holdMarkerCmp := .effective }

/-- ID (10_state.md R28): revision 1 and the four letters of PIPT. -/
def idValue : Resp := 0x0150495054

/-- A crop or bound register at reset: EN = 0, VAL = 0 (10_state.md R47). -/
def enRegReset : EnReg := { en := false, val := 0 }

/-- Five bound registers at reset (10_state.md R47). -/
def bankReset : Bank :=
  { chanA := enRegReset, chanB := enRegReset, chanC := enRegReset, chanD := enRegReset, sum := enRegReset }

/-- The configuration at power-on reset (10_state.md R47). -/
def cfgReset : Cfg :=
  { delayed := .any, flagged := .any
    preBegin := enRegReset, preEnd := enRegReset, postBegin := enRegReset, postEnd := enRegReset
    lo := bankReset, hi := bankReset }

/-- PEND_A at State.reset. DESIGN CHOICE (log entry 8): the spec leaves it unspecified and never reads it. -/
def singleZero : Single :=
  { marker := 0, flag := 0, delayed := 0, hold := #v[0, 0, 0, 0], check := #v[0, 0, 0, 0, 0]
    chan := #v[0, 0, 0, 0], sum := 0 }

/-- PREV at State.reset. DESIGN CHOICE (log entry 8). -/
def eventZero : Event := { a := singleZero, b := singleZero, position := 0, status := 0 }

/-- FRAME_BUF at State.reset. DESIGN CHOICE (log entry 8). -/
def frameZero : Frame := #v[0, 0, 0, 0, 0]

/-- One check's diagnostics at State.reset: the count is the spec's 0 (10_state.md R39); the samples
are a DESIGN CHOICE (log entry 8). -/
def diagZero : Diag := { cnt := 0, sample := #v[0, 0, 0, 0, 0] }

end Sys2Proof.Machine
end

