-- ==== Sys2Proof/Machine/Codec.lean ====
section
/-!
DEFINITION. Codec.lean: the field map, the frame decoder and encoder (40_frame_codec.md), and the event pairer
(41_event_codec.md).
-/
namespace Sys2Proof.Machine

/-! ### FieldMap (30_encoding.md R84, 40_frame_codec.md R110 to R112) -/

/-- The named fields of a frame (30_encoding.md R84). -/
inductive FieldName where
  | marker
  | flag
  | delayed
  | check (i : Fin 5)
  | channel (j : Fin 4)
  | hold (j : Fin 4)
  deriving DecidableEq, Repr

/-- One row of the field map (40_frame_codec.md R111). -/
structure FieldSpec where
  name : FieldName
  wordIndex : Nat
  bitLength : Nat
  bitOffset : Nat
  deriving DecidableEq, Repr

/-- The field map of a layout, in the order of 30_encoding.md R84. -/
def fieldMap (l : Layout) : List FieldSpec :=
  [ { name := .marker, wordIndex := 0, bitLength := 6, bitOffset := l.offMarker },
    { name := .flag, wordIndex := 0, bitLength := 6, bitOffset := l.offFlag },
    { name := .delayed, wordIndex := 0, bitLength := 1, bitOffset := l.offDelayed },
    { name := .check 0, wordIndex := 0, bitLength := 3, bitOffset := 13 },
    { name := .channel 0, wordIndex := 1, bitLength := 12, bitOffset := l.offChan },
    { name := .hold 0, wordIndex := 1, bitLength := 1, bitOffset := l.offHold },
    { name := .check 1, wordIndex := 1, bitLength := 3, bitOffset := 13 },
    { name := .channel 1, wordIndex := 2, bitLength := 12, bitOffset := l.offChan },
    { name := .hold 1, wordIndex := 2, bitLength := 1, bitOffset := l.offHold },
    { name := .check 2, wordIndex := 2, bitLength := 3, bitOffset := 13 } ] ++
  [ { name := .channel 2, wordIndex := 3, bitLength := 12, bitOffset := l.offChan },
    { name := .hold 2, wordIndex := 3, bitLength := 1, bitOffset := l.offHold },
    { name := .check 3, wordIndex := 3, bitLength := 3, bitOffset := 13 },
    { name := .channel 3, wordIndex := 4, bitLength := 12, bitOffset := l.offChan },
    { name := .hold 3, wordIndex := 4, bitLength := 1, bitOffset := l.offHold },
    { name := .check 4, wordIndex := 4, bitLength := 3, bitOffset := 13 } ]

/-- The invariant of one row: a word of the frame, inside 16 bits (40_frame_codec.md R111). -/
def FieldSpec.inWord (f : FieldSpec) : Bool :=
  decide (f.wordIndex ≤ 4) && decide (f.bitOffset + f.bitLength ≤ 16)

/-- Two rows share no bit of a word (40_frame_codec.md R112; no exception for check bits, 90_conflicts.md C4). -/
def FieldSpec.apart (f g : FieldSpec) : Bool :=
  f.wordIndex != g.wordIndex || decide (f.bitOffset + f.bitLength ≤ g.bitOffset) ||
    decide (g.bitOffset + g.bitLength ≤ f.bitOffset)

/-- FIELDMAP_CHECK (40_frame_codec.md R112). -/
def fieldmapCheck : List FieldSpec → Bool
  | [] => true
  | f :: rest => f.inWord && rest.all f.apart && fieldmapCheck rest

/-- LAYOUT is well formed, in the words of 30_encoding.md R82. -/
def layoutOk (l : Layout) : Bool :=
  decide (l.offMarker + 6 ≤ 13) && decide (l.offFlag + 6 ≤ 13) && decide (l.offDelayed + 1 ≤ 13) &&
    decide (l.offChan + 12 ≤ 13) && decide (l.offHold + 1 ≤ 13) &&
    (decide (l.offMarker + 6 ≤ l.offFlag) || decide (l.offFlag + 6 ≤ l.offMarker)) &&
    (decide (l.offMarker + 6 ≤ l.offDelayed) || decide (l.offDelayed + 1 ≤ l.offMarker)) &&
    (decide (l.offFlag + 6 ≤ l.offDelayed) || decide (l.offDelayed + 1 ≤ l.offFlag)) &&
    (decide (l.offChan + 12 ≤ l.offHold) || decide (l.offHold + 1 ≤ l.offChan))

/-- LAYOUT_ID (10_state.md R29): the five offsets in 4 bits each, bits 39:20 read 0. -/
def layoutId (l : Layout) : Resp :=
  (0 : BitVec 20) ++ BitVec.ofNat 4 l.offHold ++ BitVec.ofNat 4 l.offChan ++ BitVec.ofNat 4 l.offDelayed ++
    BitVec.ofNat 4 l.offFlag ++ BitVec.ofNat 4 l.offMarker

/-! ### Extraction and decode -/

/-- EXTRACT (40_frame_codec.md R113): `(word >> off) & mask(len)`, unsigned (30_encoding.md R86). -/
def extract (w : Word) (off len : Nat) : BitVec len := w.extractLsb' off len

/-- SUM (40_frame_codec.md R115): the four channels, widened to 32 bits before they are added. -/
def sumChan (chan : Vector (BitVec 12) 4) : BitVec 32 :=
  chan[0].setWidth 32 + chan[1].setWidth 32 + chan[2].setWidth 32 + chan[3].setWidth 32

/-- The four channels of a frame: `chan[j]` from word j+1 (30_encoding.md R80). -/
def decodeChan (l : Layout) (w : Frame) : Vector (BitVec 12) 4 :=
  #v[extract w[1] l.offChan 12, extract w[2] l.offChan 12, extract w[3] l.offChan 12, extract w[4] l.offChan 12]

/-- The four hold bits of a frame: `hold[j]` from word j+1 (30_encoding.md R80). -/
def decodeHold (l : Layout) (w : Frame) : Vector (BitVec 1) 4 :=
  #v[extract w[1] l.offHold 1, extract w[2] l.offHold 1, extract w[3] l.offHold 1, extract w[4] l.offHold 1]

/-- The five check values of a frame, bits 15:13 of each word under every layout (30_encoding.md R81). -/
def decodeCheck (w : Frame) : Vector (BitVec 3) 5 :=
  #v[extract w[0] 13 3, extract w[1] 13 3, extract w[2] 13 3, extract w[3] 13 3, extract w[4] 13 3]

/-- DECODE5 (40_frame_codec.md R114): total, and no validation. -/
def decode5 (l : Layout) (w : Frame) : Single :=
  { marker := extract w[0] l.offMarker 6
    flag := extract w[0] l.offFlag 6
    delayed := extract w[0] l.offDelayed 1
    hold := decodeHold l w
    check := decodeCheck w
    chan := decodeChan l w
    sum := sumChan (decodeChan l w) }

/-! ### Encode -/

/-- INSERT (40_frame_codec.md R116): `(v & mask(len)) << off`; bits of `v` above `len` are discarded. -/
def insert (v off len : Nat) : Word := (BitVec.ofNat len v).setWidth 16 <<< off

/-- Word 0 of a frame, format W0 (40_frame_codec.md R117). -/
def encodeHeader (l : Layout) (s : Single) : Word :=
  insert s.check[0].toNat 13 3 ||| insert s.delayed.toNat l.offDelayed 1 |||
    insert s.flag.toNat l.offFlag 6 ||| insert s.marker.toNat l.offMarker 6

/-- A channel word, format WC (40_frame_codec.md R117). -/
def encodeChannel (l : Layout) (check : BitVec 3) (hold : BitVec 1) (chan : BitVec 12) : Word :=
  insert check.toNat 13 3 ||| insert hold.toNat l.offHold 1 ||| insert chan.toNat l.offChan 12

/-- ENCODE5 (40_frame_codec.md R117): the check values verbatim; `sum` is not read. -/
def encode5 (l : Layout) (s : Single) : Frame :=
  #v[encodeHeader l s,
     encodeChannel l s.check[1] s.hold[0] s.chan[0],
     encodeChannel l s.check[2] s.hold[1] s.chan[1],
     encodeChannel l s.check[3] s.hold[2] s.chan[2],
     encodeChannel l s.check[4] s.hold[3] s.chan[3]]

/-- The Single a host writes down from plain numbers: each is cut to its field's width, as INSERT
does (40_frame_codec.md R116, R117), and the sum is the derived one (R115). -/
def singleOfNats (marker flag delayed : Nat) (hold : Vector Nat 4) (check : Vector Nat 5) (chan : Vector Nat 4) :
    Single :=
  { marker := BitVec.ofNat 6 marker
    flag := BitVec.ofNat 6 flag
    delayed := BitVec.ofNat 1 delayed
    hold := #v[BitVec.ofNat 1 hold[0], BitVec.ofNat 1 hold[1], BitVec.ofNat 1 hold[2], BitVec.ofNat 1 hold[3]]
    check := #v[BitVec.ofNat 3 check[0], BitVec.ofNat 3 check[1], BitVec.ofNat 3 check[2], BitVec.ofNat 3 check[3],
      BitVec.ofNat 3 check[4]]
    chan := #v[BitVec.ofNat 12 chan[0], BitVec.ofNat 12 chan[1], BitVec.ofNat 12 chan[2], BitVec.ofNat 12 chan[3]]
    sum := sumChan
      #v[BitVec.ofNat 12 chan[0], BitVec.ofNat 12 chan[1], BitVec.ofNat 12 chan[2], BitVec.ofNat 12 chan[3]] }

/-! ### Buffer operations -/

/-- The complete frames of a word sequence, in order (20_memory.md R62). -/
def framesOf : List Word → List Frame
  | w0 :: w1 :: w2 :: w3 :: w4 :: rest => #v[w0, w1, w2, w3, w4] :: framesOf rest
  | _ => []

/-- DECODE_BUF (40_frame_codec.md R121). -/
def decodeBuf (l : Layout) (w : List Word) : Except MalformedInput (List Single) :=
  if w.length % 5 ≠ 0 then .error .wordcount else .ok ((framesOf w).map (decode5 l))

/-! ### EventCodec -/

/-- The Events of a Single sequence, numbered from `k`; a trailing Single forms none. DESIGN CHOICE (log entry 29):
past number 2^32 - 1 the 32-bit position is the number modulo 2^32. -/
def pairFrom (k : Nat) : List Single → List Event
  | a :: b :: rest => { a := a, b := b, position := BitVec.ofNat 32 k, status := 0 } :: pairFrom (k + 1) rest
  | _ => []

/-- PAIR (41_event_codec.md R140); positions beyond 32 bits are log entry 29. -/
def pair (s : List Single) : Except MalformedInput (List Event) :=
  if s.length % 2 ≠ 0 then .error .odd else .ok (pairFrom 0 s)

/-- UNPAIR (41_event_codec.md R142): position and status are dropped. -/
def unpair (es : List Event) : List Single := es.flatMap fun e => [e.a, e.b]

/-- SERIALIZE (40_frame_codec.md R122): a function of the host's, applied to OUT; no command calls it. -/
def serialize (l : Layout) (es : List Event) : List Word :=
  (unpair es).flatMap fun s => (encode5 l s).toList

end Sys2Proof.Machine
end

