-- ==== Sys2Proof/Machine/State.lean ====
section
/-!
DEFINITION. State.lean: everything the spec gives the machine (10_state.md), the reasons a step can stop, and reset.
-/
namespace Sys2Proof.Machine

/-- One thing the host does at the block's inputs. -/
inductive HostItem where
  /-- a word on the input port (44_stream_control.md R240) -/
  | word (p : PortWord)
  /-- the reset input asserted between two commands (70_reset_and_hazards.md R330; log entry 5) -/
  | powerOnReset
  deriving DecidableEq, Repr

/-- The state of the block, the build it is, and what the host has issued but the block has not taken. -/
structure State where
  /-- LAYOUT and HOLD_MARKER_CMP (00_scope.md R4); no instruction writes it (log entry 1) -/
  build : Build
  /-- the configuration registers (10_state.md R22 to R27) -/
  cfg : Cfg
  /-- PHASE (10_state.md R30) -/
  phase : Phase
  /-- RAW_IDX (10_state.md R31) -/
  rawIdx : BitVec 36
  /-- FRAME_BUF (10_state.md R32) -/
  frameBuf : Frame
  /-- FRAME_CNT (10_state.md R32) -/
  frameCnt : BitVec 3
  /-- SINGLE_IDX (10_state.md R33) -/
  singleIdx : BitVec 34
  /-- PEND_A (10_state.md R34) -/
  pendA : Single
  /-- PEND_VALID (10_state.md R34) -/
  pendValid : Bool
  /-- EVT_IDX (10_state.md R35) -/
  evtIdx : BitVec 33
  /-- PREV (10_state.md R36) -/
  prev : Event
  /-- PREV_VALID (10_state.md R36) -/
  prevValid : Bool
  /-- KEPT_IDX (10_state.md R37) -/
  keptIdx : BitVec 33
  /-- EMIT_CNT (10_state.md R38) -/
  emitCnt : BitVec 33
  /-- DIAG_CNT[SIG] and DIAG_SAMPLE[SIG] (10_state.md R39, R40) -/
  diagSig : Diag
  /-- DIAG_CNT[PAIR] and DIAG_SAMPLE[PAIR] -/
  diagPair : Diag
  /-- DIAG_CNT[CONT] and DIAG_SAMPLE[CONT] -/
  diagCont : Diag
  /-- STAT.ERR_WORDCOUNT (10_state.md R41) -/
  errWordcount : Bool
  /-- STAT.ERR_ODD (10_state.md R41) -/
  errOdd : Bool
  /-- STAT.CMD_ERR (10_state.md R42) -/
  cmdErr : Bool
  /-- OUT, in emission order (10_state.md R45) -/
  out : List Event
  /-- RESP of the last command, none where it returns none (44_stream_control.md R240; log entry 4) -/
  resp : Option Resp
  /-- what the host has issued and the block has not yet taken, oldest first (log entry 3) -/
  input : List HostItem
  /-- the model's own: numbers the draws of free values (log entry 9) -/
  freeCtr : Nat
  deriving DecidableEq, Repr

/-- Why the machine does not exist or stops with a fault. -/
inductive Fault where
  /-- Raised by `buildBlock` alone, never by a step: an ill-formed LAYOUT is refused at build time and no
  block is built from it (30_encoding.md R82, 40_frame_codec.md R112). Safe. -/
  | illFormedLayout
  deriving DecidableEq, Repr

/-- Why the model gives a command no meaning. -/
inductive Refusal where
  /-- Raised by an arm of `exec` for an instruction that has no meaning yet. Safe. No arm raises it now. -/
  | notModelled (mnemonic : String)
  /-- Raised by PUSH and by the frame words when RAW_IDX = N_RAW_MAX (44_stream_control.md R263). Safe. -/
  | rawCapacity
  /-- Raised by PUSH and by the frame words when the word would form an Event and EVT_IDX = N_EVT_MAX
  (44_stream_control.md R263). Safe. -/
  | eventCapacity
  deriving DecidableEq, Repr

/-- The outcome of one step. -/
abbrev Outcome := Host.Outcome State Fault Refusal

/-- The block right after power-on reset, built with the parameters `b` (10_state.md R47, 70_reset_and_hazards.md R330).
The contents of the guarded registers are a DESIGN CHOICE (log entry 8). -/
def State.resetOf (b : Build) : State :=
  { build := b, cfg := cfgReset, phase := .idle, rawIdx := 0, frameBuf := frameZero, frameCnt := 0
    singleIdx := 0, pendA := singleZero, pendValid := false, evtIdx := 0, prev := eventZero, prevValid := false
    keptIdx := 0, emitCnt := 0, diagSig := diagZero, diagPair := diagZero, diagCont := diagZero
    errWordcount := false, errOdd := false, cmdErr := false, out := [], resp := none, input := [], freeCtr := 0 }

/-- The machine right after reset, with the spec's default parameters (30_encoding.md R83, 42_validator.md R170). -/
def State.reset : State := State.resetOf buildDefault

end Sys2Proof.Machine
end

