-- ==== Sys2Proof/Machine/Flags.lean ====
section
/-!
DEFINITION. Flags.lean: PHASE and the status bits (10_state.md R30, R41, R42, R46): their codes, the status word, and
the two ways a status bit is set.
-/
namespace Sys2Proof.Machine

/-- The code of PHASE (10_state.md R30). -/
def phaseCode : Phase → BitVec 2
  | .idle => 0
  | .run => 1
  | .doneOk => 2
  | .doneErr => 3

/-- PHASE is DONE_OK or DONE_ERR: the run has ended (44_stream_control.md R246, R251). -/
def phaseDone : Phase → Bool
  | .idle | .run => false
  | .doneOk | .doneErr => true

/-- A status bit as one bit. -/
def flagBit (b : Bool) : BitVec 1 := BitVec.ofBool b

/-- The status word of select 0x00 (20_memory.md R70). -/
def statusWord (s : State) : Resp :=
  (0 : BitVec 31) ++ flagBit s.pendValid ++ s.frameCnt ++ flagBit s.cmdErr ++ flagBit s.errOdd ++
    flagBit s.errWordcount ++ phaseCode s.phase

/-- A legal command that returns `r` on the response port: nothing else changes (20_memory.md R65). -/
def respond (r : Option Resp) (s : State) : State := { s with resp := r }

/-- `cmd_error()` and the response of an illegal command (60_exceptions.md R304): CMD_ERR is set, RESP is 0 if
the opcode reads and none otherwise, and nothing else changes. -/
def illegal (reads : Bool) (s : State) : State :=
  { s with cmdErr := true, resp := if reads then some 0 else none }

/-- `raise MalformedInput(kind)` inside END (60_exceptions.md R302): the status bit of the kind and PHASE = DONE_ERR. -/
def raiseMalformed (kind : MalformedInput) (s : State) : State :=
  match kind with
  | .wordcount => { s with errWordcount := true, phase := .doneErr, resp := none }
  | .odd => { s with errOdd := true, phase := .doneErr, resp := none }

end Sys2Proof.Machine
end

