-- ==== Sys2Proof/Machine/Operands.lean ====
section
/-!
DEFINITION. Operands.lean: the select maps (20_memory.md R69 to R71) and the register data formats
(30_encoding.md R91 to R95).
-/
namespace Sys2Proof.Machine

/-! ### Configuration space -/

/-- A register of the configuration space (20_memory.md R69). -/
inductive CfgReg where
  | delayed
  | flagged
  | preBegin
  | preEnd
  | postBegin
  | postEnd
  | lo (q : Quantity)
  | hi (q : Quantity)
  | layoutId
  | id
  deriving DecidableEq, Repr

/-- The register of a configuration select; none where the select is reserved (20_memory.md R69). -/
def cfgRegOf (sel : BitVec 8) : Option CfgReg :=
  match sel.toNat with
  | 0x00 => some .delayed
  | 0x01 => some .flagged
  | 0x02 => some .preBegin
  | 0x03 => some .preEnd
  | 0x04 => some .postBegin
  | 0x05 => some .postEnd
  | 0x08 => some (.lo .chanA)
  | 0x09 => some (.lo .chanB)
  | 0x0A => some (.lo .chanC)
  | 0x0B => some (.lo .chanD)
  | 0x0C => some (.lo .sum)
  | 0x10 => some (.hi .chanA)
  | 0x11 => some (.hi .chanB)
  | 0x12 => some (.hi .chanC)
  | 0x13 => some (.hi .chanD)
  | 0x14 => some (.hi .sum)
  | 0x3E => some .layoutId
  | 0x3F => some .id
  | _ => none

/-- The select of a configuration register (20_memory.md R69), for the assembler. -/
def cfgSelOf : CfgReg → BitVec 8
  | .delayed => 0x00
  | .flagged => 0x01
  | .preBegin => 0x02
  | .preEnd => 0x03
  | .postBegin => 0x04
  | .postEnd => 0x05
  | .lo .chanA => 0x08
  | .lo .chanB => 0x09
  | .lo .chanC => 0x0A
  | .lo .chanD => 0x0B
  | .lo .sum => 0x0C
  | .hi .chanA => 0x10
  | .hi .chanB => 0x11
  | .hi .chanC => 0x12
  | .hi .chanD => 0x13
  | .hi .sum => 0x14
  | .layoutId => 0x3E
  | .id => 0x3F

/-- The policy of `DATA[1:0]`; none for the illegal value 3 (30_encoding.md R92). -/
def policyOf (v : BitVec 2) : Option Policy :=
  match v.toNat with
  | 0 => some .requireFalse
  | 1 => some .requireTrue
  | 2 => some .any
  | _ => none

/-- The code of a policy (30_encoding.md R92). -/
def policyCode : Policy → BitVec 2
  | .requireFalse => 0
  | .requireTrue => 1
  | .any => 2

/-- A crop or bound register from DATA: EN in bit 32, VAL in bits 31:0, bits 39:33 ignored (30_encoding.md R93, R94). -/
def enRegOf (data : BitVec 40) : EnReg := { en := data.getLsbD 32, val := data.extractLsb' 0 32 }

/-- The readback of a crop or bound register (30_encoding.md R95). -/
def enRegData (r : EnReg) : Resp := (0 : BitVec 7) ++ flagBit r.en ++ r.val

/-- The readback of a policy register (30_encoding.md R95). -/
def policyData (p : Policy) : Resp := (policyCode p).setWidth 40

/-- The value RDCFG returns, unused bits 0 (44_stream_control.md R245, 30_encoding.md R95). -/
def readCfg (b : Build) (c : Cfg) : CfgReg → Resp
  | .delayed => policyData c.delayed
  | .flagged => policyData c.flagged
  | .preBegin => enRegData c.preBegin
  | .preEnd => enRegData c.preEnd
  | .postBegin => enRegData c.postBegin
  | .postEnd => enRegData c.postEnd
  | .lo q => enRegData (c.lo.get q)
  | .hi q => enRegData (c.hi.get q)
  | .layoutId => Machine.layoutId b.layout
  | .id => idValue

/-- The configuration after a write of DATA; none where the register is read-only or DATA holds the policy value 3
(44_stream_control.md R244, 30_encoding.md R91, R92). -/
def writeCfg (c : Cfg) (r : CfgReg) (data : BitVec 40) : Option Cfg :=
  match r with
  | .delayed => (policyOf (data.extractLsb' 0 2)).map fun p => { c with delayed := p }
  | .flagged => (policyOf (data.extractLsb' 0 2)).map fun p => { c with flagged := p }
  | .preBegin => some { c with preBegin := enRegOf data }
  | .preEnd => some { c with preEnd := enRegOf data }
  | .postBegin => some { c with postBegin := enRegOf data }
  | .postEnd => some { c with postEnd := enRegOf data }
  | .lo q => some { c with lo := c.lo.set q (enRegOf data) }
  | .hi q => some { c with hi := c.hi.set q (enRegOf data) }
  | .layoutId => none
  | .id => none

/-- The configuration a WRCFG of SEL and DATA would leave, and none where the write is illegal whatever the phase. -/
def cfgWrite (c : Cfg) (sel : BitVec 8) (data : BitVec 40) : Option Cfg :=
  match cfgRegOf sel with
  | none => none
  | some r => writeCfg c r data

/-! ### Status space -/

/-- An item of the status space (20_memory.md R70). -/
inductive StatItem where
  | status
  | raw
  | singles
  | events
  | kept
  | emitted
  deriving DecidableEq, Repr

/-- The item of a status select; none where the select is reserved (20_memory.md R70). -/
def statItemOf (sel : BitVec 8) : Option StatItem :=
  match sel.toNat with
  | 0 => some .status
  | 1 => some .raw
  | 2 => some .singles
  | 3 => some .events
  | 4 => some .kept
  | 5 => some .emitted
  | _ => none

/-- The value RDSTAT returns (20_memory.md R70). -/
def readStat (s : State) : StatItem → Resp
  | .status => statusWord s
  | .raw => s.rawIdx.setWidth 40
  | .singles => s.singleIdx.setWidth 40
  | .events => s.evtIdx.setWidth 40
  | .kept => s.keptIdx.setWidth 40
  | .emitted => s.emitCnt.setWidth 40

/-! ### Diagnostic space -/

/-- The check of `SEL[7:6]`; none for the reserved value 3 (20_memory.md R71). -/
def checkOf (v : BitVec 2) : Option Check :=
  match v.toNat with
  | 0 => some .sig
  | 1 => some .pair
  | 2 => some .cont
  | _ => none

/-- An item of one check's diagnostics: a sample slot or the count (20_memory.md R71). -/
inductive DiagItem where
  | sample (j : Fin 5)
  | count
  deriving DecidableEq, Repr

/-- The item of `SEL[2:0]`; none for the reserved values 5 and 6 (20_memory.md R71). -/
def diagItemOf (v : BitVec 3) : Option DiagItem :=
  match v.toNat with
  | 0 => some (.sample 0)
  | 1 => some (.sample 1)
  | 2 => some (.sample 2)
  | 3 => some (.sample 3)
  | 4 => some (.sample 4)
  | 7 => some .count
  | _ => none

/-- The check and item of a diagnostic select; none where it is reserved or `SEL[5:3]` is not 0 (20_memory.md R71). -/
def diagSelOf (sel : BitVec 8) : Option (Check × DiagItem) :=
  if sel.extractLsb' 3 3 ≠ 0 then none
  else match checkOf (sel.extractLsb' 6 2), diagItemOf (sel.extractLsb' 0 3) with
    | some c, some t => some (c, t)
    | _, _ => none

/-- The diagnostics of one check. -/
def State.diag (s : State) : Check → Diag
  | .sig => s.diagSig
  | .pair => s.diagPair
  | .cont => s.diagCont

/-- The value RDDIAG returns of one check (44_stream_control.md R252): a valid sample has bit 39 set, and a slot that
holds no violation reads 0. -/
def readDiag (d : Diag) : DiagItem → Resp
  | .count => d.cnt.setWidth 40
  | .sample j => if j.val < d.cnt.toNat then (8 : BitVec 4) ++ d.sample[j] else 0

end Sys2Proof.Machine
end

