-- ==== Sys2Proof/Machine/Selection.lean ====
section
/-!
DEFINITION. Selection.lean: the crops and the filter predicates (43_selection.md).
-/
namespace Sys2Proof.Machine

/-! ### Crop -/

/-- CROP (43_selection.md R200): the clamped half-open slice of 00_scope.md R7. -/
def crop {α : Type} (xs : List α) (lo hi : Option Nat) : List α :=
  (xs.take (hi.getD xs.length)).drop (lo.getD 0)

/-- The optional index a crop register stands for, scaled by `k` (30_encoding.md R94: EN = 0 is none). -/
def cropBound (k : Nat) (r : EnReg) : Option Nat := if r.en then some (k * r.val.toNat) else none

/-- PRE_CROP (43_selection.md R201): on raw words, scaled by the 10-word event stride. -/
def preCrop (c : Cfg) (raw : List Word) : List Word :=
  crop raw (cropBound 10 c.preBegin) (cropBound 10 c.preEnd)

/-- IN_PRE (43_selection.md R201), the streaming form. -/
def inPre (c : Cfg) (r : Nat) : Bool :=
  (!c.preBegin.en || decide (10 * c.preBegin.val.toNat ≤ r)) &&
    (!c.preEnd.en || decide (r < 10 * c.preEnd.val.toNat))

/-- POST_CROP (43_selection.md R202): indices into the filtered sequence. -/
def postCrop (c : Cfg) (es : List Event) : List Event :=
  crop es (cropBound 1 c.postBegin) (cropBound 1 c.postEnd)

/-- IN_POST (43_selection.md R202), the streaming form. -/
def inPost (c : Cfg) (j : Nat) : Bool :=
  (!c.postBegin.en || decide (c.postBegin.val.toNat ≤ j)) &&
    (!c.postEnd.en || decide (j < c.postEnd.val.toNat))

/-! ### Filter predicates -/

/-- DELAYED_OK (43_selection.md R203; `require_true` is 'at least one side', 90_conflicts.md C2). -/
def delayedOk (c : Cfg) (e : Event) : Bool :=
  match c.delayed with
  | .requireFalse => e.a.delayed == 0 && e.b.delayed == 0
  | .requireTrue => e.a.delayed == 1 || e.b.delayed == 1
  | .any => true

/-- H(e) of 43_selection.md R204: some hold bit of either side is 1. -/
def anyHold (e : Event) : BitVec 1 :=
  e.a.hold[0] ||| e.a.hold[1] ||| e.a.hold[2] ||| e.a.hold[3] |||
    e.b.hold[0] ||| e.b.hold[1] ||| e.b.hold[2] ||| e.b.hold[3]

/-- FLAGGED_OK (43_selection.md R204). -/
def flaggedOk (c : Cfg) (e : Event) : Bool :=
  match c.flagged with
  | .requireFalse => anyHold e == 0
  | .requireTrue => anyHold e == 1
  | .any => true

/-- VALQ (43_selection.md R205): a non-negative integer. -/
def quantityOf (s : Single) : Quantity → Nat
  | .chanA => s.chan[0].toNat
  | .chanB => s.chan[1].toNat
  | .chanC => s.chan[2].toNat
  | .chanD => s.chan[3].toNat
  | .sum => s.sum.toNat

/-- SIDE_OK (43_selection.md R205): the bounds are two's-complement integers, both inclusive. -/
def sideOk (c : Cfg) (s : Single) (q : Quantity) : Bool :=
  (!(c.lo.get q).en || decide ((c.lo.get q).val.toInt ≤ (quantityOf s q : Int))) &&
    (!(c.hi.get q).en || decide ((quantityOf s q : Int) ≤ (c.hi.get q).val.toInt))

/-- BOUND_OK (43_selection.md R205): both sides, each for itself. -/
def boundOk (c : Cfg) (e : Event) (q : Quantity) : Bool := sideOk c e.a q && sideOk c e.b q

/-- KEEP (43_selection.md R206). -/
def keep (c : Cfg) (e : Event) : Bool :=
  delayedOk c e && flaggedOk c e && boundOk c e .chanA && boundOk c e .chanB && boundOk c e .chanC &&
    boundOk c e .chanD && boundOk c e .sum

/-- FILTER (43_selection.md R207). -/
def filterEvents (c : Cfg) (es : List Event) : List Event := es.filter (keep c)

end Sys2Proof.Machine
end

