-- ==== Sys2Proof/Machine/Validator.lean ====
section
/-!
DEFINITION. Validator.lean: the signature, pairwise and continuity checks (42_validator.md).
-/
namespace Sys2Proof.Machine

/-! ### Signature -/

/-- SIG_OK (42_validator.md R161). -/
def sigOk (i : Fin 5) (c : BitVec 3) : Bool := c == expectedCheck[i] || c == dummyCheck

/-- The word indices of a frame, in order. -/
def wordIndices : List (Fin 5) := [0, 1, 2, 3, 4]

/-- SIGCHK_SINGLE (42_validator.md R162): the positions of the words that fail, in increasing order. -/
def sigchkSingle (s : Single) (base : Nat) : List Nat :=
  (wordIndices.filter fun i => !sigOk i s.check[i]).map fun i => base + i.val

/-- SIGCHK from Event number `k` on. -/
def sigchkFrom (k : Nat) : List Event → List Nat
  | [] => []
  | e :: rest => sigchkSingle e.a (10 * k) ++ sigchkSingle e.b (10 * k + 5) ++ sigchkFrom (k + 1) rest

/-- SIGCHK (42_validator.md R163): word positions in the accepted stream. -/
def sigchk (es : List Event) : List Nat := sigchkFrom 0 es

/-! ### Pairwise match -/

/-- PAIR_BAD (42_validator.md R164). -/
def pairBad (e : Event) : Bool :=
  e.a.marker == e.b.marker && e.a.flag != dummyFlag && e.b.flag != dummyFlag

/-- PAIRCHK (42_validator.md R165): event positions. -/
def pairchk (es : List Event) : List Nat := (es.filter pairBad).map fun e => e.position.toNat

/-! ### Continuity -/

/-- EFFMARK (42_validator.md R166): only side_a's flag is consulted. -/
def effmark (e : Event) : BitVec 6 := if e.a.flag = dummyFlag then e.b.marker else e.a.marker

/-- INCR_OK (42_validator.md R167): an exact integer difference. -/
def incrOk (p c : Event) : Bool := decide (((effmark c).toNat : Int) - (effmark p).toNat = 1)

/-- WRAP_OK (42_validator.md R168): an exact integer difference. -/
def wrapOk (p c : Event) : Bool := decide (((effmark p).toNat : Int) - (effmark c).toNat = 63)

/-- MEQ (42_validator.md R170): which markers the hold exception compares. -/
def markersEq (h : HoldMarkerCmp) (p c : Event) (side : Side) : Bool :=
  match h with
  | .effective => effmark p == effmark c
  | .perSide => (p.side side).marker == (c.side side).marker

/-- HOLD_OK (42_validator.md R170): only `hold[0]` is read. -/
def holdOk (h : HoldMarkerCmp) (p c : Event) : Bool :=
  (p.a.hold[0] == 1 && c.a.hold[0] == 1 && markersEq h p c .a) ||
    (p.b.hold[0] == 1 && c.b.hold[0] == 1 && markersEq h p c .b)

/-- CONT_OK (42_validator.md R171). -/
def contOk (h : HoldMarkerCmp) (p c : Event) : Bool := incrOk p c || wrapOk p c || holdOk h p c

/-- CONTCHK of the Events after `p`. -/
def contchkFrom (h : HoldMarkerCmp) (p : Event) : List Event → List Nat
  | [] => []
  | c :: rest => (if contOk h p c then [] else [c.position.toNat]) ++ contchkFrom h c rest

/-- CONTCHK (42_validator.md R172): the first Event is exempt. -/
def contchk (h : HoldMarkerCmp) : List Event → List Nat
  | [] => []
  | e :: rest => contchkFrom h e rest

/-! ### Reporting -/

/-- The bounded report of one check (42_validator.md R173). -/
structure Report where
  count : Nat
  samples : List Nat
  deriving DecidableEq, Repr

/-- REPORT (42_validator.md R173). -/
def report (violations : List Nat) : Report :=
  { count := violations.length, samples := violations.take sampleDepth }

/-- The validator's result: one report per check (42_validator.md R174). -/
structure Diagnosis where
  sig : Report
  pair : Report
  cont : Report
  deriving DecidableEq, Repr

/-- VALIDATE (42_validator.md R174). -/
def validate (h : HoldMarkerCmp) (es : List Event) : Diagnosis :=
  { sig := report (sigchk es), pair := report (pairchk es), cont := report (contchk h es) }

end Sys2Proof.Machine
end

