-- ==== Sys2Proof/Machine/Ops.lean ====
section
/-!
DEFINITION. Ops.lean: the named operations every meaning is made of: the input port, run reset and power-on reset, RECORD,
EVENT_DONE, SINGLE_DONE, ACCEPT_WORD and the push of one word (44_stream_control.md R243 to R251).

This machine's 'exceptions' are status updates without entry, vector or saved register (60_exceptions.md R307):
`illegal` and `raiseMalformed` of Flags.lean are the two ways in, and `resetRunState` below is the way out (R308).
-/
namespace Sys2Proof.Machine

/-! ### The input port (44_stream_control.md R240) -/

/-- The oldest thing the host has issued, and the state without it; none when the host has issued nothing. -/
def takeItem (s : State) : Option (HostItem × State) :=
  match s.input with
  | [] => none
  | item :: rest => some (item, { s with input := rest })

/-- The state in which the host issues `item` next. -/
def issueNext (item : HostItem) (s : State) : State := { s with input := item :: s.input }

/-! ### Reset -/

/-- The run-state part of reset (10_state.md R47, 44_stream_control.md R243, 70_reset_and_hazards.md R331).
The guarded registers become unspecified: their contents are free values (log entry 9). -/
def resetRunState (s : State) : State :=
  { s with
    phase := .idle
    rawIdx := 0
    frameBuf := Config.freeFrame s.freeCtr
    frameCnt := 0
    singleIdx := 0
    pendA := Config.freeSingle s.freeCtr
    pendValid := false
    evtIdx := 0
    prev := Config.freeEvent s.freeCtr
    prevValid := false
    keptIdx := 0
    emitCnt := 0
    diagSig := { cnt := 0, sample := Config.freeSigSample s.freeCtr }
    diagPair := { cnt := 0, sample := Config.freePairSample s.freeCtr }
    diagCont := { cnt := 0, sample := Config.freeContSample s.freeCtr }
    errWordcount := false
    errOdd := false
    cmdErr := false
    out := []
    resp := none
    freeCtr := s.freeCtr + 1 }

/-- Power-on reset while the block is running (70_reset_and_hazards.md R330): run state and configuration; the build is kept. -/
def powerOnReset (s : State) : State := { resetRunState s with cfg := cfgReset }

/-- A block of the build `b`, right after power-on reset; none exists for an ill-formed LAYOUT
(30_encoding.md R82, 40_frame_codec.md R112). -/
def buildBlock (b : Build) : Outcome :=
  if fieldmapCheck (fieldMap b.layout) then .next (State.resetOf b) else .fault .illFormedLayout

/-! ### RECORD (44_stream_control.md R250) -/

/-- One more violation at position `p` in one check's diagnostics. -/
def recordIn (d : Diag) (p : BitVec 36) : Diag :=
  { cnt := d.cnt + 1
    sample := if d.cnt.toNat < sampleDepth then d.sample.setIfInBounds d.cnt.toNat p else d.sample }

/-- A list of positions recorded in one check's diagnostics, one after the other. -/
def recordList (d : Diag) (ps : List Nat) : Diag := ps.foldl (fun d p => recordIn d (BitVec.ofNat 36 p)) d

/-- RECORD(c, p). -/
def record (c : Check) (p : BitVec 36) (s : State) : State :=
  match c with
  | .sig => { s with diagSig := recordIn s.diagSig p }
  | .pair => { s with diagPair := recordIn s.diagPair p }
  | .cont => { s with diagCont := recordIn s.diagCont p }

/-- RECORD of each position of a list, in order. -/
def recordAll (c : Check) (ps : List Nat) (s : State) : State :=
  ps.foldl (fun t p => record c (BitVec.ofNat 36 p) t) s

/-! ### EVENT_DONE (44_stream_control.md R249) -/

/-- The pairwise check of a formed Event. -/
def checkPair (e : Event) (s : State) : State :=
  if pairBad e then record .pair (e.position.setWidth 36) s else s

/-- The continuity check of a formed Event against PREV; the first Event of a run is exempt. -/
def checkCont (e : Event) (s : State) : State :=
  if s.prevValid && !contOk s.build.holdMarkerCmp s.prev e then record .cont (e.position.setWidth 36) s else s

/-- `PREV <- e; PREV_VALID <- 1`, for every Event, kept or not. -/
def setPrev (e : Event) (s : State) : State := { s with prev := e, prevValid := true }

/-- The filter, the post-filter crop and `Emit`. -/
def selectEvent (e : Event) (s : State) : State :=
  if keep s.cfg e then
    if inPost s.cfg s.keptIdx.toNat then
      { s with keptIdx := s.keptIdx + 1, out := s.out ++ [e], emitCnt := s.emitCnt + 1 }
    else { s with keptIdx := s.keptIdx + 1 }
  else s

/-- EVENT_DONE(e). -/
def eventDone (e : Event) (s : State) : State := selectEvent e (setPrev e (checkCont e (checkPair e s)))

/-! ### SINGLE_DONE (44_stream_control.md R248) -/

/-- The signature check of a completed Single, and the count of Singles. -/
def checkSingle (x : Single) (s : State) : State :=
  let t := recordAll .sig (sigchkSingle x (5 * s.singleIdx.toNat)) s
  { t with singleIdx := t.singleIdx + 1 }

/-- The Event formed of PEND_A and `x` (41_event_codec.md R140, R144). -/
def formEvent (x : Single) (s : State) : Event :=
  { a := s.pendA, b := x, position := s.evtIdx.setWidth 32, status := 0 }

/-- SINGLE_DONE(s). -/
def singleDone (x : Single) (s : State) : Outcome :=
  let t := checkSingle x s
  if t.pendValid = false then .next { t with pendA := x, pendValid := true }
  else if t.evtIdx.toNat = nEvtMax then .refused .eventCapacity
  else .next (eventDone (formEvent x t) { t with pendValid := false, evtIdx := t.evtIdx + 1 })

/-! ### ACCEPT_WORD and the push of a word (44_stream_control.md R246, R247) -/

/-- ACCEPT_WORD(w). -/
def acceptWord (w : Word) (s : State) : Outcome :=
  let buf := s.frameBuf.setIfInBounds s.frameCnt.toNat w
  if s.frameCnt.toNat < 4 then .next { s with frameBuf := buf, frameCnt := s.frameCnt + 1 }
  else singleDone (decode5 s.build.layout buf) { s with frameBuf := buf, frameCnt := 0 }

/-- The input of one word of the stream (44_stream_control.md R246). -/
def pushWord (w : Word) (s : State) : Outcome :=
  if phaseDone s.phase then .next (illegal false s)
  else if s.rawIdx.toNat = nRawMax then .refused .rawCapacity
  else
    let t := { s with phase := .run, rawIdx := s.rawIdx + 1, resp := none }
    if inPre s.cfg s.rawIdx.toNat then acceptWord w t else .next t

end Sys2Proof.Machine
end

