-- ==== Sys2Proof/Machine/Control.lean ====
section
/-!
DEFINITION. Control.lean: NOP, RESET_RUN, END and the reserved opcodes.
-/
namespace Sys2Proof.Machine

/-- NOP (44_stream_control.md R242): SEL and DATA are ignored and no effect follows; it returns no response. -/
def execNop (_sel : BitVec 8) (_data : BitVec 40) (s : State) : Outcome := .next (respond none s)

/-- RESET_RUN (44_stream_control.md R243): legal in every phase. -/
def execResetRun (_sel : BitVec 8) (_data : BitVec 40) (s : State) : Outcome := .next (resetRunState s)

/-- END (44_stream_control.md R251): WORDCOUNT is tested before ODD (60_exceptions.md R301). -/
def execEndRun (_sel : BitVec 8) (_data : BitVec 40) (s : State) : Outcome :=
  if phaseDone s.phase then .next (illegal false s)
  else if s.frameCnt ≠ 0 then .next (raiseMalformed .wordcount s)
  else if s.pendValid then .next (raiseMalformed .odd s)
  else .next { s with phase := .doneOk, resp := none }

/-- RESERVED_OPC (60_exceptions.md R303, R304): an illegal command whatever SEL, RSV and DATA hold. An opcode of 0x08 or
above never reads, so it returns no response (44_stream_control.md R241). -/
def execReservedOpc (opc _sel _rsv : BitVec 8) (_data : BitVec 40) (s : State) : Outcome :=
  .next (illegal (opcReads opc) s)

/-- A command word the decoder rejects: OPC below 0x08 and RSV not 0 (44_stream_control.md R241). RESP is 0 if the
opcode reads. No row of the opcode table stands for it, so it is no arm of `exec`; the step calls it (log entry 7). -/
def execRejected (err : DecodeError) (s : State) : Outcome :=
  match err with
  | .rsvNonzero opc => .next (illegal (opcReads opc) s)

end Sys2Proof.Machine
end

