-- ==== Sys2Proof/Machine/Registers.lean ====
section
/-!
DEFINITION. Registers.lean: WRCFG, RDCFG, RDDIAG and RDSTAT.
-/
namespace Sys2Proof.Machine

/-- WRCFG (44_stream_control.md R244): illegal while PHASE is RUN, on a select that is not writable and on the policy
value 3. -/
def execWrcfg (sel : BitVec 8) (data : BitVec 40) (s : State) : Outcome :=
  if s.phase = .run then .next (illegal false s)
  else match cfgWrite s.cfg sel data with
    | none => .next (illegal false s)
    | some c => .next { s with cfg := c, resp := none }

/-- RDCFG (44_stream_control.md R245): legal in every phase; DATA is ignored. -/
def execRdcfg (sel : BitVec 8) (_data : BitVec 40) (s : State) : Outcome :=
  match cfgRegOf sel with
  | none => .next (illegal true s)
  | some r => .next (respond (some (readCfg s.build s.cfg r)) s)

/-- RDDIAG (44_stream_control.md R252): legal in every phase; DATA is ignored. -/
def execRddiag (sel : BitVec 8) (_data : BitVec 40) (s : State) : Outcome :=
  match diagSelOf sel with
  | none => .next (illegal true s)
  | some (c, t) => .next (respond (some (readDiag (s.diag c) t)) s)

/-- RDSTAT (44_stream_control.md R253): legal in every phase; DATA is ignored. -/
def execRdstat (sel : BitVec 8) (_data : BitVec 40) (s : State) : Outcome :=
  match statItemOf sel with
  | none => .next (illegal true s)
  | some t => .next (respond (some (readStat s t)) s)

end Sys2Proof.Machine
end

