-- ==== Sys2Proof/Machine/Stream.lean ====
section
/-!
DEFINITION. Stream.lean: PUSH, and the eight frame word classes.

A frame word reaches the block as the word of a PUSH and in no other way (20_memory.md R60). DESIGN CHOICE (log entry 6):
a frame word standing alone on the port is that PUSH. The class of the word is read by the signature check alone, when its
frame is complete (30_encoding.md R85, 42_validator.md R162); decoding goes by the word's index in the frame (R80).
-/
namespace Sys2Proof.Machine

/-- PUSH (44_stream_control.md R246): the word is `DATA[15:0]`; SEL and `DATA[39:16]` are ignored. -/
def execPush (_sel : BitVec 8) (data : BitVec 40) (s : State) : Outcome := pushWord (data.extractLsb' 0 16) s

/-- FW_HDR: a word with check value 4 (30_encoding.md R85). -/
def execFwHdr (payload : BitVec 13) (s : State) : Outcome := pushWord (frameWord 4 payload) s

/-- FW_CHA: a word with check value 0 (30_encoding.md R85). -/
def execFwCha (payload : BitVec 13) (s : State) : Outcome := pushWord (frameWord 0 payload) s

/-- FW_CHB: a word with check value 1 (30_encoding.md R85). -/
def execFwChb (payload : BitVec 13) (s : State) : Outcome := pushWord (frameWord 1 payload) s

/-- FW_CHC: a word with check value 2 (30_encoding.md R85). -/
def execFwChc (payload : BitVec 13) (s : State) : Outcome := pushWord (frameWord 2 payload) s

/-- FW_CHD: a word with check value 3 (30_encoding.md R85). -/
def execFwChd (payload : BitVec 13) (s : State) : Outcome := pushWord (frameWord 3 payload) s

/-- FW_DUMMY: a word with check value 5 (30_encoding.md R85). -/
def execFwDummy (payload : BitVec 13) (s : State) : Outcome := pushWord (frameWord 5 payload) s

/-- FW_RSV6: a word with check value 6, a framing violation at every index (30_encoding.md R85). -/
def execFwRsv6 (payload : BitVec 13) (s : State) : Outcome := pushWord (frameWord 6 payload) s

/-- FW_RSV7: a word with check value 7, a framing violation at every index (30_encoding.md R85). -/
def execFwRsv7 (payload : BitVec 13) (s : State) : Outcome := pushWord (frameWord 7 payload) s

end Sys2Proof.Machine
end

