-- ==== Sys2Proof/Machine/Dispatch.lean ====
section
/-!
DEFINITION. Dispatch.lean: one arm per constructor of Instr.
-/
namespace Sys2Proof.Machine

/-- The meaning of each instruction. -/
def exec (i : Instr) (s : State) : Host.Outcome State Fault Refusal :=
  match i with
  | .nop sel data => Sys2Proof.Machine.execNop sel data s
  | .resetRun sel data => Sys2Proof.Machine.execResetRun sel data s
  | .wrcfg sel data => Sys2Proof.Machine.execWrcfg sel data s
  | .rdcfg sel data => Sys2Proof.Machine.execRdcfg sel data s
  | .push sel data => Sys2Proof.Machine.execPush sel data s
  | .endRun sel data => Sys2Proof.Machine.execEndRun sel data s
  | .rddiag sel data => Sys2Proof.Machine.execRddiag sel data s
  | .rdstat sel data => Sys2Proof.Machine.execRdstat sel data s
  | .reservedOpc opc sel rsv data => Sys2Proof.Machine.execReservedOpc opc sel rsv data s
  | .fwHdr payload => Sys2Proof.Machine.execFwHdr payload s
  | .fwCha payload => Sys2Proof.Machine.execFwCha payload s
  | .fwChb payload => Sys2Proof.Machine.execFwChb payload s
  | .fwChc payload => Sys2Proof.Machine.execFwChc payload s
  | .fwChd payload => Sys2Proof.Machine.execFwChd payload s
  | .fwDummy payload => Sys2Proof.Machine.execFwDummy payload s
  | .fwRsv6 payload => Sys2Proof.Machine.execFwRsv6 payload s
  | .fwRsv7 payload => Sys2Proof.Machine.execFwRsv7 payload s

end Sys2Proof.Machine
end

