-- ==== Sys2Proof/Machine/Step.lean ====
section
/-!
DEFINITION. Step.lean: one step of the machine: the block takes the oldest thing the host has issued and performs it whole.
-/
namespace Sys2Proof.Machine

/-- One transaction (44_stream_control.md R240). Where the host has issued nothing, the block waits and the state is
unchanged (log entry 3). -/
def step (s : State) : Host.Outcome State Fault Refusal :=
  match takeItem s with
  | none => .next s
  | some (.powerOnReset, t) => .next (powerOnReset t)
  | some (.word p, t) =>
    match decode p with
    | .ok i => exec i t
    | .error err => execRejected err t

/-- `s` with the host about to issue the word whose bits are `w` (log entries 3 and 26). -/
def State.withFetchWord (s : State) (nbits w : Nat) : State :=
  match portWordOf nbits w with
  | none => s
  | some p => issueNext (.word p) s

end Sys2Proof.Machine
end

