-- ==== Sys2Proof/Machine/Assembler.lean ====
section
/-!
DEFINITION. Assembler.lean: the assembler lines of 30_encoding.md R96, the pseudo-instructions of R97, and their text.
-/
namespace Sys2Proof.Machine

/-! ### Lines -/

/-- The value operand of WRCFG (30_encoding.md R96). -/
inductive AsmValue where
  | off
  | int (v : Int)
  | policy (p : Policy)
  deriving DecidableEq, Repr

/-- The operands of the SINGLE pseudo-instruction (30_encoding.md R97). -/
structure AsmSingle where
  marker : Nat
  flag : Nat
  delayed : Nat
  hold : Vector Nat 4
  chan : Vector Nat 4
  check : Vector Nat 5
  deriving DecidableEq, Repr

/-- One assembler line. -/
inductive AsmLine where
  | nop
  | resetRun
  | endRun
  | push (w : Word)
  | wrcfg (sel : BitVec 8) (v : AsmValue)
  | rdcfg (sel : BitVec 8)
  | rddiag (c : Check) (t : DiagItem)
  | rdstat (sel : BitVec 8)
  | pushf (w : Vector Word 5)
  | pushe (w : Vector Word 10)
  | single (s : AsmSingle)
  | cfgOff (sel : BitVec 8)
  | rdAllDiag (c : Check)
  deriving DecidableEq, Repr

/-- DATA that enables a crop or bound register at the integer `v`: `(1 << 32) | (v & 0xFFFFFFFF)` (30_encoding.md R96). -/
def enabledAt (v : Int) : BitVec 40 := (1 : BitVec 8) ++ BitVec.ofInt 32 v

/-- DATA of a WRCFG: for a crop or bound register `OFF` is 0 and an integer is `enabledAt` of it, where a crop register takes no
negative one (30_encoding.md R94, R96); for a policy register the value is a policy name or 0 to 2 (R96). Any other pair is
no line (log entry 18). -/
def asmData (sel : BitVec 8) (v : AsmValue) : Option (BitVec 40) :=
  match cfgRegOf sel, v with
  | some .delayed, .policy p | some .flagged, .policy p => some ((policyCode p).setWidth 40)
  | some .delayed, .int n | some .flagged, .int n =>
    if 0 ≤ n ∧ n ≤ 2 then some (BitVec.ofInt 40 n) else none
  | some .delayed, .off | some .flagged, .off => none
  | some .layoutId, _ | some .id, _ | none, _ => none
  | some _, .off => some 0
  | some .preBegin, .int n | some .preEnd, .int n | some .postBegin, .int n | some .postEnd, .int n =>
    if 0 ≤ n then some (enabledAt n) else none
  | some (.lo _), .int n | some (.hi _), .int n => some (enabledAt n)
  | some _, .policy _ => none

/-- SEL of a diagnostic item (20_memory.md R71). -/
def diagSel (c : Check) (t : DiagItem) : BitVec 8 :=
  let check : BitVec 2 :=
    match c with
    | .sig => 0
    | .pair => 1
    | .cont => 2
  let item : BitVec 3 :=
    match t with
    | .sample j => BitVec.ofNat 3 j.val
    | .count => 7
  check ++ (0 : BitVec 3) ++ item

/-- The instructions of one line; a pseudo-instruction expands (30_encoding.md R97). -/
def assemble (l : Layout) : AsmLine → Option (List Instr)
  | .nop => some [.nop 0 0]
  | .resetRun => some [.resetRun 0 0]
  | .endRun => some [.endRun 0 0]
  | .push w => some [pushOf w]
  | .wrcfg sel v => (asmData sel v).map fun d => [.wrcfg sel d]
  | .rdcfg sel => some [.rdcfg sel 0]
  | .rddiag c t => some [.rddiag (diagSel c t) 0]
  | .rdstat sel => some [.rdstat sel 0]
  | .pushf w => some (w.toList.map pushOf)
  | .pushe w => some (w.toList.map pushOf)
  | .single s =>
    some ((encode5 l (singleOfNats s.marker s.flag s.delayed s.hold s.check s.chan)).toList.map pushOf)
  | .cfgOff sel => (asmData sel .off).map fun d => [.wrcfg sel d]
  | .rdAllDiag c =>
    some ((.count :: ([0, 1, 2, 3, 4] : List (Fin 5)).map DiagItem.sample).map fun t => .rddiag (diagSel c t) 0)

/-! ### Text (30_encoding.md R96; the conventions the rule leaves open are log entry 18) -/

/-- Space or tab. -/
def isBlank (c : Char) : Bool := c == ' ' || c == '\t'

/-- A text without the blanks at its two ends. -/
def trimBlanks (t : List Char) : List Char := ((t.dropWhile isBlank).reverse.dropWhile isBlank).reverse

/-- A text cut at every `sep`. -/
def cutAt (sep : Char → Bool) : List Char → List (List Char)
  | [] => [[]]
  | c :: cs =>
    if sep c then [] :: cutAt sep cs
    else match cutAt sep cs with
      | [] => [[c]]
      | part :: parts => (c :: part) :: parts

/-- The non-empty parts of a text cut at its blanks. -/
def wordsOfText (t : List Char) : List (List Char) := (cutAt isBlank t).filter fun p => !p.isEmpty

/-- The comma-separated operands of a text; a blank text has none. -/
def operandsOf (t : List Char) : List (List Char) :=
  if (trimBlanks t).isEmpty then [] else (cutAt (· == ',') t).map trimBlanks

/-- The value of a digit in base 16. DESIGN CHOICE (log entry 18): the letters A to F count in either case. -/
def digitOf (c : Char) : Option Nat :=
  let n := c.toNat
  if 48 ≤ n ∧ n ≤ 57 then some (n - 48)
  else if 65 ≤ n ∧ n ≤ 70 then some (n - 55)
  else if 97 ≤ n ∧ n ≤ 102 then some (n - 87)
  else none

/-- The digits of a number in a base, after those already read. -/
def digitsFrom (base acc : Nat) : List Char → Option Nat
  | [] => some acc
  | c :: cs =>
    match digitOf c with
    | none => none
    | some d => if d < base then digitsFrom base (acc * base + d) cs else none

/-- A number, decimal or with 0x hexadecimal. DESIGN CHOICE (log entry 18): the x of the prefix is the small letter. -/
def natOfText : List Char → Option Nat
  | [] => none
  | '0' :: 'x' :: c :: cs => digitsFrom 16 0 (c :: cs)
  | c :: cs => digitsFrom 10 0 (c :: cs)

/-- A number below a limit. -/
def natBelow (limit : Nat) (t : List Char) : Option Nat :=
  match natOfText t with
  | none => none
  | some n => if n < limit then some n else none

/-- A number that may be negative. -/
def intOfText : List Char → Option Int
  | '-' :: cs => (natOfText cs).map fun n => -(n : Int)
  | cs => (natOfText cs).map fun n => (n : Int)

/-- The value a table gives a name. DESIGN CHOICE (log entry 18): a name, and so a mnemonic, is taken only in the letter case
the table has it in. -/
def lookupName {α : Type} (table : List (String × α)) (t : List Char) : Option α :=
  (table.find? fun row => row.1.toList == t).map Prod.snd

/-- A frame word operand. -/
def wordOfText (t : List Char) : Option Word := (natBelow (2 ^ 16) t).map (BitVec.ofNat 16)

/-- The register names of 20_memory.md R69, and for the bound registers also the spelling of the examples of 30_encoding.md R96
(`CFG_LO_SUM`). -/
def regNames : List (String × CfgReg) :=
  [ ("CFG_DELAYED", .delayed), ("CFG_FLAGGED", .flagged), ("CFG_PRE_BEGIN", .preBegin), ("CFG_PRE_END", .preEnd),
    ("CFG_POST_BEGIN", .postBegin), ("CFG_POST_END", .postEnd) ] ++
  [ ("CFG_LO_A", .lo .chanA), ("CFG_LO_B", .lo .chanB), ("CFG_LO_C", .lo .chanC), ("CFG_LO_D", .lo .chanD),
    ("CFG_LO_SUM", .lo .sum) ] ++
  [ ("CFG_HI_A", .hi .chanA), ("CFG_HI_B", .hi .chanB), ("CFG_HI_C", .hi .chanC), ("CFG_HI_D", .hi .chanD),
    ("CFG_HI_SUM", .hi .sum), ("LAYOUT_ID", .layoutId), ("ID", .id) ] ++
  [ ("CFG_LO[A]", .lo .chanA), ("CFG_LO[B]", .lo .chanB), ("CFG_LO[C]", .lo .chanC), ("CFG_LO[D]", .lo .chanD),
    ("CFG_LO[SUM]", .lo .sum) ] ++
  [ ("CFG_HI[A]", .hi .chanA), ("CFG_HI[B]", .hi .chanB), ("CFG_HI[C]", .hi .chanC), ("CFG_HI[D]", .hi .chanD),
    ("CFG_HI[SUM]", .hi .sum) ]

/-- A register operand: a name or a number. -/
def regOfText (t : List Char) : Option (BitVec 8) :=
  match lookupName regNames t with
  | some r => some (cfgSelOf r)
  | none => (natBelow 256 t).map (BitVec.ofNat 8)

/-- A value operand: a word of 30_encoding.md R96 or a number. -/
def valueOfText (t : List Char) : Option AsmValue :=
  match lookupName [("OFF", AsmValue.off), ("REQUIRE_FALSE", .policy .requireFalse),
      ("REQUIRE_TRUE", .policy .requireTrue), ("ANY", .policy .any)] t with
  | some v => some v
  | none => (intOfText t).map AsmValue.int

/-- A check operand. -/
def checkOfText (t : List Char) : Option Check :=
  lookupName [("SIG", .sig), ("PAIR", .pair), ("CONT", .cont)] t

/-- A diagnostic item operand: `COUNT` or 0 to 4. -/
def itemOfText (t : List Char) : Option DiagItem :=
  match lookupName [("COUNT", DiagItem.count)] t with
  | some v => some v
  | none =>
    match natOfText t with
    | some n => if h : n < 5 then some (.sample ⟨n, h⟩) else none
    | none => none

/-- A status operand: a name or 0 to 5. -/
def statOfText (t : List Char) : Option (BitVec 8) :=
  match lookupName [("STATUS", (0 : BitVec 8)), ("RAW", 1), ("SINGLES", 2), ("EVENTS", 3), ("KEPT", 4),
      ("EMITTED", 5)] t with
  | some v => some v
  | none => (natBelow 6 t).map (BitVec.ofNat 8)

/-- The text after `key=`. -/
def afterKey (key : String) (t : List Char) : Option (List Char) :=
  let k := key.toList ++ ['=']
  if k.isPrefixOf t then some (t.drop k.length) else none

/-- Every value of a list, or none. -/
def allSome {α : Type} : List (Option α) → Option (List α)
  | [] => some []
  | none :: _ => none
  | some a :: rest => (allSome rest).map fun as => a :: as

/-- A list of `n` values as a vector. -/
def vectorOf {α : Type} (n : Nat) (xs : List α) : Option (Vector α n) :=
  if h : xs.toArray.size = n then some ⟨xs.toArray, h⟩ else none

/-- `n` comma-separated numbers. -/
def natsOfText (n : Nat) (t : List Char) : Option (Vector Nat n) :=
  match allSome ((operandsOf t).map natOfText) with
  | none => none
  | some xs => vectorOf n xs

/-- Four binary digits, `hold[0]` first. -/
def holdOfText (t : List Char) : Option (Vector Nat 4) :=
  match allSome (t.map fun c => if c == '0' then some 0 else if c == '1' then some 1 else none) with
  | none => none
  | some xs => vectorOf 4 xs

/-- A number operand with its key. -/
def keyedNat (key : String) (t : List Char) : Option Nat :=
  match afterKey key t with
  | none => none
  | some v => natOfText v

/-- The operands of SINGLE, in the order of 30_encoding.md R97; the check values may be left out. -/
def singleOfText (parts : List (List Char)) : Option AsmSingle :=
  let build (m f dl h c : List Char) (k : Option (Vector Nat 5)) : Option AsmSingle :=
    match keyedNat "m" m, keyedNat "f" f, keyedNat "dl" dl, (afterKey "h" h).bind holdOfText,
        (afterKey "c" c).bind (natsOfText 4), k with
    | some m, some f, some dl, some h, some c, some k =>
      some { marker := m, flag := f, delayed := dl, hold := h, chan := c, check := k }
    | _, _, _, _, _, _ => none
  match parts with
  | [m, f, dl, h, c] => build m f dl h c (some #v[4, 0, 1, 2, 3])
  | [m, f, dl, h, c, k] => build m f dl h c ((afterKey "k" k).bind (natsOfText 5))
  | _ => none

/-- `n` words as operands. -/
def frameOfText (n : Nat) (ops : List (List Char)) : Option (Vector Word n) :=
  match allSome (ops.map wordOfText) with
  | none => none
  | some ws => vectorOf n ws

/-- A line whose mnemonic is known. -/
def lineOf (mnemonic rest : List Char) : Option AsmLine :=
  let ops := operandsOf rest
  match lookupName [("NOP", 0), ("RESET_RUN", 1), ("END", 2), ("PUSH", 3), ("WRCFG", 4), ("RDCFG", 5), ("RDDIAG", 6),
      ("RDSTAT", 7), ("PUSHF", 8), ("PUSHE", 9), ("SINGLE", 10), ("CFGOFF", 11), ("RDALLDIAG", 12)] mnemonic, ops with
  | some 0, [] => some .nop
  | some 1, [] => some .resetRun
  | some 2, [] => some .endRun
  | some 3, [w] => (wordOfText w).map AsmLine.push
  | some 4, [r, v] =>
    match regOfText r, valueOfText v with
    | some sel, some v => some (.wrcfg sel v)
    | _, _ => none
  | some 5, [r] => (regOfText r).map AsmLine.rdcfg
  | some 6, [c, t] =>
    match checkOfText c, itemOfText t with
    | some c, some t => some (.rddiag c t)
    | _, _ => none
  | some 7, [t] => (statOfText t).map AsmLine.rdstat
  | some 8, ws => (frameOfText 5 ws).map AsmLine.pushf
  | some 9, ws => (frameOfText 10 ws).map AsmLine.pushe
  | some 10, _ => (singleOfText (wordsOfText rest)).map AsmLine.single
  | some 11, [r] => (regOfText r).map AsmLine.cfgOff
  | some 12, [c] => (checkOfText c).map AsmLine.rdAllDiag
  | _, _ => none

/-- One line of text: `MNEMONIC operand, operand ; comment`. A blank line or a comment alone holds no command. -/
def assembleText (l : Layout) (t : List Char) : Option (List Instr) :=
  let body := trimBlanks (t.takeWhile (· != ';'))
  if body.isEmpty then some []
  else
    match lineOf (body.takeWhile fun c => !isBlank c) (body.dropWhile fun c => !isBlank c) with
    | none => none
    | some line => assemble l line

end Sys2Proof.Machine
end

