-- ==== Sys2Proof/Machine/Batch.lean ====
section
/-!
DEFINITION. Batch.lean: the source's batch function RUN_BATCH and the result of a run (44_stream_control.md R260, R264).
-/
namespace Sys2Proof.Machine

/-- The result of a run (44_stream_control.md R260): an error carries no Events and no diagnostics. -/
inductive RunResult where
  | error (kind : MalformedInput)
  | ok (out : List Event) (diag : Diagnosis)
  deriving DecidableEq, Repr

/-- RUN_BATCH (44_stream_control.md R264), in the order of 43_selection.md R208. -/
def runBatch (b : Build) (c : Cfg) (raw : List Word) : RunResult :=
  match decodeBuf b.layout (preCrop c raw) with
  | .error kind => .error kind
  | .ok singles =>
    match pair singles with
    | .error kind => .error kind
    | .ok es => .ok (postCrop c (filterEvents c es)) (validate b.holdMarkerCmp es)

/-- What one check's registers report: the count, and the samples that are valid (10_state.md R40). -/
def diagReport (d : Diag) : Report :=
  { count := d.cnt.toNat, samples := (d.sample.toList.take d.cnt.toNat).map fun p => p.toNat }

/-- RESULT (44_stream_control.md R260): defined only in DONE_OK and DONE_ERR. -/
def State.result (s : State) : Option RunResult :=
  match s.phase with
  | .idle | .run => none
  | .doneOk =>
    some (.ok s.out { sig := diagReport s.diagSig, pair := diagReport s.diagPair, cont := diagReport s.diagCont })
  | .doneErr =>
    if s.errWordcount then some (.error .wordcount)
    else if s.errOdd then some (.error .odd)
    else none

end Sys2Proof.Machine
end

