-- ==== Sys2Proof/Machine/HostSide.lean ====
section
/-!
DEFINITION. HostSide.lean: what the spec says the host does on its side of the ports: bytes to words and back
(20_memory.md R61), thresholds to bound registers (30_encoding.md R93), and the order of a run
(44_stream_control.md R262, 70_reset_and_hazards.md R333).
-/
namespace Sys2Proof.Machine

/-! ### Byte order (20_memory.md R61) -/

/-- Two bytes, the one at the lower address first, to a word. -/
def wordOfBytes (o : ByteOrder) (b0 b1 : Byte) : Word :=
  match o with
  | .little => b1 ++ b0
  | .big => b0 ++ b1

/-- A byte buffer to words (20_memory.md R61). An odd byte count the host reports itself (44_stream_control.md R262); DESIGN CHOICE
(log entry 20): such a buffer then has no words at all. -/
def wordsOfBytes (o : ByteOrder) : List Byte → Option (List Word)
  | [] => some []
  | [_] => none
  | b0 :: b1 :: rest => (wordsOfBytes o rest).map fun ws => wordOfBytes o b0 b1 :: ws

/-- A word to its two bytes, the one at the lower address first. -/
def bytesOfWord (o : ByteOrder) (w : Word) : List Byte :=
  match o with
  | .little => [w.extractLsb' 0 8, w.extractLsb' 8 8]
  | .big => [w.extractLsb' 8 8, w.extractLsb' 0 8]

/-- Re-encoded words back to bytes, by the same convention. -/
def bytesOfWords (o : ByteOrder) (ws : List Word) : List Byte := ws.flatMap (bytesOfWord o)

/-! ### Thresholds (30_encoding.md R93) -/

/-- A threshold beyond the 32-bit signed range is clamped to it. -/
def clampBound (z : Int) : Int := max (-(2 ^ 31)) (min z (2 ^ 31 - 1))

/-- VAL of the lower-bound register for a threshold `t`: `ceil(t)`, clamped. -/
def hostLowerBound (t : Rat) : BitVec 32 := BitVec.ofInt 32 (clampBound ⌈t⌉)

/-- VAL of the upper-bound register for a threshold `t`: `floor(t)`, clamped. -/
def hostUpperBound (t : Rat) : BitVec 32 := BitVec.ofInt 32 (clampBound ⌊t⌋)

/-! ### A run (70_reset_and_hazards.md R333) -/

/-- What the host issues for one instruction. -/
def itemOf (i : Instr) : HostItem := .word (encode i)

/-- The commands of one run, in the order the spec requires: run reset, configuration writes, the words, END, and the read
of the status word. To stop early, the host gives fewer words. -/
def runCommands (writes : List (BitVec 8 × BitVec 40)) (raw : List Word) : List Instr :=
  [.resetRun 0 0] ++ writes.map (fun p => .wrcfg p.1 p.2) ++ raw.map pushOf ++ [.endRun 0 0, .rdstat 0 0]

/-- The host issues a whole run, after whatever it has issued before. -/
def issueRun (writes : List (BitVec 8 × BitVec 40)) (raw : List Word) (s : State) : State :=
  { s with input := s.input ++ (runCommands writes raw).map itemOf }

end Sys2Proof.Machine
end

