-- ==== Sys2Proof/Safety.lean ====
section
/-!
DEFINITION. Safety.lean: the terms the claims are stated in: which commands are illegal, the invariants of the state, which
states look alike, and what a run is.
-/
namespace Sys2Proof

/-! ### Kinds of instruction -/

/-- RDCFG, RDDIAG and RDSTAT: the commands that return a response (30_encoding.md R89). -/
def Instr.reads : Instr → Bool
  | .rdcfg _ _ | .rddiag _ _ | .rdstat _ _ => true
  | .nop _ _ | .resetRun _ _ | .wrcfg _ _ | .push _ _ | .endRun _ _ | .reservedOpc _ _ _ _ => false
  | .fwHdr _ | .fwCha _ | .fwChb _ | .fwChc _ | .fwChd _ | .fwDummy _ | .fwRsv6 _ | .fwRsv7 _ => false

/-- RESET_RUN, whatever its ignored fields hold. -/
def Instr.isResetRun : Instr → Bool
  | .resetRun _ _ => true
  | .nop _ _ | .wrcfg _ _ | .rdcfg _ _ | .push _ _ | .endRun _ _ | .rddiag _ _ | .rdstat _ _ => false
  | .reservedOpc _ _ _ _ => false
  | .fwHdr _ | .fwCha _ | .fwChb _ | .fwChc _ | .fwChd _ | .fwDummy _ | .fwRsv6 _ | .fwRsv7 _ => false

/-- WRCFG, whatever it writes. -/
def Instr.isWrcfg : Instr → Bool
  | .wrcfg _ _ => true
  | .nop _ _ | .resetRun _ _ | .rdcfg _ _ | .push _ _ | .endRun _ _ | .rddiag _ _ | .rdstat _ _ => false
  | .reservedOpc _ _ _ _ => false
  | .fwHdr _ | .fwCha _ | .fwChb _ | .fwChc _ | .fwChd _ | .fwDummy _ | .fwRsv6 _ | .fwRsv7 _ => false

end Sys2Proof

namespace Sys2Proof.Machine

/-! ### Illegal commands (30_encoding.md R90, R91, R92; 60_exceptions.md R303), written from those tables and not from the meanings -/

/-- The writable configuration selects (20_memory.md R69, access RW). -/
def writableSelects : List Nat :=
  [0x00, 0x01, 0x02, 0x03, 0x04, 0x05, 0x08, 0x09, 0x0A, 0x0B, 0x0C, 0x10, 0x11, 0x12, 0x13, 0x14]

/-- The readable configuration selects (20_memory.md R69). -/
def readableSelects : List Nat := writableSelects ++ [0x3E, 0x3F]

/-- A write that no phase allows: a select that is not writable, or the policy value 3. -/
def BadWrite (sel : BitVec 8) (data : BitVec 40) : Prop :=
  sel.toNat ∉ writableSelects ∨ (sel.toNat ≤ 1 ∧ data.toNat % 4 = 3)

/-- The command is illegal in this state (30_encoding.md R90). -/
def Illegal (s : State) : Instr → Prop
  | .nop _ _ | .resetRun _ _ => False
  | .wrcfg sel data => s.phase = .run ∨ BadWrite sel data
  | .rdcfg sel _ => sel.toNat ∉ readableSelects
  | .push _ _ | .endRun _ _ => s.phase = .doneOk ∨ s.phase = .doneErr
  | .rddiag sel _ => 3 ≤ sel.toNat / 64 ∨ sel.toNat / 8 % 8 ≠ 0 ∨ sel.toNat % 8 = 5 ∨ sel.toNat % 8 = 6
  | .rdstat sel _ => 5 < sel.toNat
  | .reservedOpc _ _ _ _ => True
  | .fwHdr _ | .fwCha _ | .fwChb _ | .fwChc _ => s.phase = .doneOk ∨ s.phase = .doneErr
  | .fwChd _ | .fwDummy _ | .fwRsv6 _ | .fwRsv7 _ => s.phase = .doneOk ∨ s.phase = .doneErr

/-! ### The rules' own arithmetic, for the statements -/

/-- The code of a policy as a number (30_encoding.md R92). -/
def policyNumber : Policy → Nat
  | .requireFalse => 0
  | .requireTrue => 1
  | .any => 2

/-- A crop or bound register as a number: EN in bit 32, VAL in bits 31:0 (30_encoding.md R95). -/
def enRegNumber (r : EnReg) : Nat := (if r.en then 2 ^ 32 else 0) + r.val.toNat

/-- The code of PHASE as a number (10_state.md R30). -/
def phaseNumber : Phase → Nat
  | .idle => 0
  | .run => 1
  | .doneOk => 2
  | .doneErr => 3

/-- A status bit as a number. -/
def bitNumber (b : Bool) : Nat := if b then 1 else 0

/-- The DATA bits a configuration register uses (20_memory.md R69): 1:0 for a policy, 32:0 for the others that are writable. -/
def usedDataBits (sel : BitVec 8) : BitVec 40 := if sel.toNat ≤ 1 then 0x3 else 0x1FFFFFFFF

/-- The value a configuration select reads as, none where it is reserved. -/
def cfgValue (b : Build) (c : Cfg) (sel : BitVec 8) : Option Resp := (cfgRegOf sel).map (readCfg b c)

/-- Raw word number `r` is inside the pre-decode crop window (43_selection.md R201). -/
def InWindow (c : Cfg) (r : Nat) : Prop :=
  (c.preBegin.en = true → 10 * c.preBegin.val.toNat ≤ r) ∧ (c.preEnd.en = true → r < 10 * c.preEnd.val.toNat)

/-- Kept Event number `j` is inside the post-filter crop window (43_selection.md R202). -/
def InFinalWindow (c : Cfg) (j : Nat) : Prop :=
  (c.postBegin.en = true → c.postBegin.val.toNat ≤ j) ∧ (c.postEnd.en = true → j < c.postEnd.val.toNat)

/-- The block takes words: PHASE is IDLE or RUN, and the run has not pushed N_RAW_MAX words (44_stream_control.md R246, R263). -/
def TakesWords (s : State) : Prop := (s.phase = .idle ∨ s.phase = .run) ∧ s.rawIdx.toNat < nRawMax

/-- The places of the words of a frame whose class is not legal at their index (30_encoding.md R85), where word 0 stands at
`base`. -/
def framingPlaces (f : Frame) (base : Nat) : List Nat :=
  (wordIndices.filter fun k => !(decodeFrameWord f[k]).legalAtIndex k).map fun k => base + k.val

/-! ### The checks and the filter in fields and numbers, written from the rules and not from the definitions of the machine -/

/-- The two sides collide: equal markers, and neither flag is 15 (42_validator.md R164). -/
def Collides (e : Event) : Prop :=
  e.a.marker.toNat = e.b.marker.toNat ∧ e.a.flag.toNat ≠ 15 ∧ e.b.flag.toNat ≠ 15

/-- The marker of the live side: side_b's where side_a's flag is 15, else side_a's (42_validator.md R166). -/
def liveMarker (e : Event) : Nat := if e.a.flag.toNat = 15 then e.b.marker.toNat else e.a.marker.toNat

/-- The hold exception: on one side `hold[0]` is 1 in both Events, and the markers the build compares are equal
(42_validator.md R170). -/
def HoldExcuses (h : HoldMarkerCmp) (p c : Event) : Prop :=
  ∃ side : Side, (p.side side).hold[0].toNat = 1 ∧ (c.side side).hold[0].toNat = 1 ∧
    match h with
    | .effective => liveMarker p = liveMarker c
    | .perSide => (p.side side).marker.toNat = (c.side side).marker.toNat

/-- `c` continues `p`: an increment by 1, the wraparound from 63 to 0, or the hold exception (42_validator.md R167, R168, R171). -/
def Continues (h : HoldMarkerCmp) (p c : Event) : Prop :=
  liveMarker c = liveMarker p + 1 ∨ (liveMarker p = 63 ∧ liveMarker c = 0) ∨ HoldExcuses h p c

/-- A policy keeps these bits: all of them 0, at least one of them 1, or anything (43_selection.md R203, R204). -/
def PolicyKeeps (p : Policy) (bits : List (BitVec 1)) : Prop :=
  match p with
  | .requireFalse => ∀ b ∈ bits, b = 0
  | .requireTrue => ∃ b ∈ bits, b = 1
  | .any => True

/-- The value of a quantity on one side (43_selection.md R205). -/
def fieldNumber (x : Single) : Quantity → Nat
  | .chanA => x.chan[0].toNat
  | .chanB => x.chan[1].toNat
  | .chanC => x.chan[2].toNat
  | .chanD => x.chan[3].toNat
  | .sum => x.sum.toNat

/-- 32 bits read as a two's-complement integer (00_scope.md R6). -/
def signedNumber (v : BitVec 32) : Int := if v.toNat < 2 ^ 31 then v.toNat else (v.toNat : Int) - 2 ^ 32

/-- The bounds of a quantity keep the value `v`: each enabled bound, read as a signed integer, is kept to (43_selection.md R205). -/
def BoundsKeep (c : Cfg) (q : Quantity) (v : Nat) : Prop :=
  ((c.lo.get q).en = true → signedNumber (c.lo.get q).val ≤ (v : Int)) ∧
    ((c.hi.get q).en = true → (v : Int) ≤ signedNumber (c.hi.get q).val)

/-- The filter keeps the Event: both policies, and the bounds of every quantity on each side (43_selection.md R206). -/
def Kept (c : Cfg) (e : Event) : Prop :=
  PolicyKeeps c.delayed [e.a.delayed, e.b.delayed] ∧
    PolicyKeeps c.flagged [e.a.hold[0], e.a.hold[1], e.a.hold[2], e.a.hold[3],
      e.b.hold[0], e.b.hold[1], e.b.hold[2], e.b.hold[3]] ∧
    ∀ q : Quantity, BoundsKeep c q (fieldNumber e.a q) ∧ BoundsKeep c q (fieldNumber e.b q)

/-! ### Invariants -/

/-- The sum of a Single is the exact sum of its channels (40_frame_codec.md R120). -/
def SumOk (x : Single) : Prop :=
  x.sum.toNat = x.chan[0].toNat + x.chan[1].toNat + x.chan[2].toNat + x.chan[3].toNat

/-- An Event as the block forms it: both sums exact, status 0 (40_frame_codec.md R120, 41_event_codec.md R144). -/
def EventOk (e : Event) : Prop := SumOk e.a ∧ SumOk e.b ∧ e.status = 0

/-- Every record the block stores and may read is one it formed (40_frame_codec.md R120, 41_event_codec.md R144). -/
structure RecordInv (s : State) : Prop where
  pend : s.pendValid = true → SumOk s.pendA
  prev : s.prevValid = true → EventOk s.prev
  out : ∀ e ∈ s.out, EventOk e

/-- One check's diagnostics: no more violations than places for them, and the valid samples are places below `bound`,
strictly increasing (44_stream_control.md R250). -/
structure DiagInv (d : Diag) (bound : Nat) : Prop where
  count : d.cnt.toNat ≤ bound
  below : ∀ j : Fin 5, j.val < d.cnt.toNat → d.sample[j].toNat < bound
  rising : ∀ j k : Fin 5, j < k → k.val < d.cnt.toNat → d.sample[j].toNat < d.sample[k].toNat

/-- The counters of a run agree with one another (10_state.md R31 to R38, 44_stream_control.md R263). -/
structure CounterInv (s : State) : Prop where
  frame : s.frameCnt.toNat ≤ 4
  singles : s.singleIdx.toNat = 2 * s.evtIdx.toNat + (if s.pendValid then 1 else 0)
  events : s.evtIdx.toNat ≤ nEvtMax
  kept : s.keptIdx.toNat ≤ s.evtIdx.toNat
  emitted : s.emitCnt.toNat ≤ s.keptIdx.toNat
  outLength : s.out.length = s.emitCnt.toNat
  words : 5 * s.singleIdx.toNat + s.frameCnt.toNat ≤ s.rawIdx.toNat
  prevValid : s.prevValid = true ↔ s.evtIdx.toNat ≠ 0

/-- Positions: PREV is the newest Event, and OUT rises through the positions formed so far (41_event_codec.md R141,
20_memory.md R66); the samples of each check rise through the places checked so far (44_stream_control.md R250). -/
structure PositionInv (s : State) : Prop where
  prev : s.prevValid = true → s.prev.position.toNat + 1 = s.evtIdx.toNat
  outBelow : ∀ e ∈ s.out, e.position.toNat < s.evtIdx.toNat
  outRising : s.out.Pairwise fun e f => e.position.toNat < f.position.toNat
  sig : DiagInv s.diagSig (5 * s.singleIdx.toNat)
  pair : DiagInv s.diagPair s.evtIdx.toNat
  cont : DiagInv s.diagCont s.evtIdx.toNat

/-- PHASE and the error bits (10_state.md R30, R41; 60_exceptions.md R301). -/
structure PhaseInv (s : State) : Prop where
  idle : s.phase = .idle → s.rawIdx.toNat = 0
  errIff : s.phase = .doneErr ↔ s.errWordcount = true ∨ s.errOdd = true
  notBoth : ¬ (s.errWordcount = true ∧ s.errOdd = true)
  wordcount : s.errWordcount = true → s.frameCnt.toNat ≠ 0
  odd : s.errOdd = true → s.frameCnt.toNat = 0 ∧ s.pendValid = true
  doneOk : s.phase = .doneOk → s.frameCnt.toNat = 0 ∧ s.pendValid = false

/-- The invariant of the run state. -/
structure RunInv (s : State) : Prop where
  counters : CounterInv s
  positions : PositionInv s
  phases : PhaseInv s

/-! ### Which states look alike (10_state.md R49) -/

/-- The diagnostics agree on the count and on every valid sample. -/
def SameDiag (d e : Diag) : Prop :=
  d.cnt = e.cnt ∧ ∀ j : Fin 5, j.val < d.cnt.toNat → d.sample[j] = e.sample[j]

/-- Two states that differ only in contents no rule may read: FRAME_BUF above FRAME_CNT, PEND_A without PEND_VALID, PREV
without PREV_VALID, DIAG_SAMPLE above DIAG_CNT, and the model's own counter of free values. -/
structure SameVisible (s t : State) : Prop where
  rest : t = { s with frameBuf := t.frameBuf, pendA := t.pendA, prev := t.prev, diagSig := t.diagSig, diagPair := t.diagPair, diagCont := t.diagCont, freeCtr := t.freeCtr }
  frame : ∀ i : Fin 5, i.val < s.frameCnt.toNat → s.frameBuf[i] = t.frameBuf[i]
  pend : s.pendValid = true → s.pendA = t.pendA
  prev : s.prevValid = true → s.prev = t.prev
  sig : SameDiag s.diagSig t.diagSig
  pair : SameDiag s.diagPair t.diagPair
  cont : SameDiag s.diagCont t.diagCont

/-- Two states that differ only in the diagnostics and in the last response. -/
def SameButDiagnostics (s t : State) : Prop :=
  t = { s with diagSig := t.diagSig, diagPair := t.diagPair, diagCont := t.diagCont, resp := t.resp }

/-- Two outcomes agree: both go on, to related states, or both stop for the same reason. -/
def OutcomesAgree (r : State → State → Prop) : Outcome → Outcome → Prop
  | .next s, .next t => r s t
  | .fault f, .fault g => f = g
  | .refused f, .refused g => f = g
  | _, _ => False

/-! ### Runs (44_stream_control.md R265) -/

/-- A state in which a run begins: PHASE is IDLE and the run state is at its reset values (10_state.md R47). CMD_ERR and the
configuration may be anything. -/
structure RunStart (s : State) : Prop where
  phase : s.phase = .idle
  rawIdx : s.rawIdx = 0
  frameCnt : s.frameCnt = 0
  singleIdx : s.singleIdx = 0
  pendValid : s.pendValid = false
  evtIdx : s.evtIdx = 0
  prevValid : s.prevValid = false
  keptIdx : s.keptIdx = 0
  emitCnt : s.emitCnt = 0
  sigCnt : s.diagSig.cnt = 0
  pairCnt : s.diagPair.cnt = 0
  contCnt : s.diagCont.cnt = 0
  errWordcount : s.errWordcount = false
  errOdd : s.errOdd = false
  out : s.out = []

/-- An instruction the rule lets stand between the words of a run: a NOP, a read, or an illegal command. `started` says
whether a word has been pushed, from when on every WRCFG is illegal. -/
def Interleaved (started : Bool) : Instr → Prop
  | .nop _ _ | .rdcfg _ _ | .rddiag _ _ | .rdstat _ _ | .reservedOpc _ _ _ _ => True
  | .wrcfg sel data => started = true ∨ BadWrite sel data
  | .resetRun _ _ | .push _ _ | .endRun _ _ => False
  | .fwHdr _ | .fwCha _ | .fwChb _ | .fwChc _ | .fwChd _ | .fwDummy _ | .fwRsv6 _ | .fwRsv7 _ => False

/-- The host's items are one run over the words `raw`: their pushes in order and then END, with NOPs, reads and illegal
commands anywhere between. `Session started items raw`. -/
inductive Session : Bool → List HostItem → List Word → Prop where
  /-- END, after the last word -/
  | finish {started : Bool} {p : PortWord} {sel : BitVec 8} {data : BitVec 40} :
      decode p = .ok (.endRun sel data) → Session started [.word p] []
  /-- the next word -/
  | push {started : Bool} {p : PortWord} {i : Instr} {w : Word} {items : List HostItem} {raw : List Word} :
      decode p = .ok i → i.pushedWord = some w → Session true items raw → Session started (.word p :: items) (w :: raw)
  /-- a NOP, a read, or an illegal command -/
  | between {started : Bool} {p : PortWord} {i : Instr} {items : List HostItem} {raw : List Word} :
      decode p = .ok i → Interleaved started i → Session started items raw → Session started (.word p :: items) raw
  /-- a command word whose RSV is not 0 -/
  | rejected {started : Bool} {p : PortWord} {err : DecodeError} {items : List HostItem} {raw : List Word} :
      decode p = .error err → Session started items raw → Session started (.word p :: items) raw

/-- The words keep the run within its capacity (44_stream_control.md R263). -/
def WithinCapacity (c : Cfg) (raw : List Word) : Prop :=
  raw.length ≤ nRawMax ∧ (preCrop c raw).length / 10 ≤ nEvtMax

end Sys2Proof.Machine
end

