-- ==== Sys2Proof/Certificates/Slice0/Obligations.lean ====
section
/-!
DEFINITION. Obligations.lean: the statements for the provers. Each docstring names the rules it formalises.
-/
open Sys2Proof Sys2Proof.Machine

/-! ### Encoding -/

/-- 30_encoding.md R88, R89, R85: every well-formed instruction, with every operand at every value its encoding admits,
is what the decoder reads from its own encoding. -/
def Obligations.DecodeOfEncodeIsIdentity : Prop :=
  ∀ i : Instr, i.WellFormed → decode (encode i) = .ok i

/-- 30_encoding.md R88, R89, R90: what the decoder accepts, it accepts from one word only, and as a well-formed term. -/
def Obligations.EncodeOfDecodeIsIdentity : Prop :=
  ∀ (p : PortWord) (i : Instr), decode p = .ok i → encode i = p ∧ i.WellFormed

/-- Log entry 7 (the model's choice; the spec's legality test of 44_stream_control.md R241 treats these words like the reserved
opcodes): the decoder itself rejects exactly the command words whose OPC is below 0x08 and whose RSV is not 0; every other
command word and every frame word decodes. -/
def Obligations.DecoderRejectsOnlyReservedBits : Prop :=
  ∀ (p : PortWord) (err : DecodeError),
    decode p = .error err ↔
      ∃ w : CmdWord, p = .command w ∧ w.toNat / 2 ^ 56 < 8 ∧ w.toNat / 2 ^ 40 % 256 ≠ 0 ∧
        err = .rsvNonzero (BitVec.ofNat 8 (w.toNat / 2 ^ 56))

/-- 95_test_vectors.md 2.7 and 3: words of the spec decode to the commands they stand for. That the decoder rejects the
seventh word, which the spec calls an illegal command, is the model's choice of log entry 7. -/
def Obligations.SpecWordsDecodeAsWritten : Prop :=
  decode (.command 0x0100000000000000) = .ok (.resetRun 0 0) ∧
  decode (.command 0x020C000100000FA0) = .ok (.wrcfg 0x0C 0x0100000FA0) ∧
  decode (.command 0x033F000000000000) = .ok (.rdcfg 0x3F 0) ∧
  decode (.command 0x04000000000093C5) = .ok (.push 0 0x93C5) ∧
  decode (.command 0x0687000000000000) = .ok (.rddiag 0x87 0) ∧
  decode (.command 0x0705000000000000) = .ok (.rdstat 0x05 0) ∧
  decode (.command 0x0400010000001234) = .error (.rsvNonzero 4) ∧
  decode (.frame 0x93C5) = .ok (.fwHdr 0x13C5) ∧
  decode (.frame 0x412C) = .ok (.fwChc 0x012C) ∧
  decode (.frame 0xA000) = .ok (.fwDummy 0)

/-- 30_encoding.md R96: the assembled command word is `(OPC << 56) | (SEL << 48) | DATA`, where RSV is 0. -/
def Obligations.CommandWordIsShiftedFields : Prop :=
  ∀ (opc sel : BitVec 8) (data : BitVec 40),
    (commandWord opc sel 0 data).toNat = opc.toNat <<< 56 ||| sel.toNat <<< 48 ||| data.toNat

/-! ### The port and the step -/

/-- 44_stream_control.md R240: a step on a word that decodes is the meaning of its instruction, at the state without that
word. Nothing else is wrapped around it. -/
def Obligations.StepRunsDecodedInstruction : Prop :=
  ∀ (s : State) (p : PortWord) (rest : List HostItem) (i : Instr),
    s.input = .word p :: rest → decode p = .ok i → step s = exec i { s with input := rest }

/-- 44_stream_control.md R241, 60_exceptions.md R304: a command word with OPC below 0x08 and RSV not 0 sets CMD_ERR, returns
0 if its opcode is 0x03, 0x06 or 0x07, and changes nothing else. -/
def Obligations.NonzeroReservedBitsSetCmdErr : Prop :=
  ∀ (s : State) (w : CmdWord) (rest : List HostItem),
    s.input = .word (.command w) :: rest → w.toNat / 2 ^ 56 < 8 → w.toNat / 2 ^ 40 % 256 ≠ 0 →
    step s = .next { s with
      input := rest
      cmdErr := true
      resp := if w.toNat / 2 ^ 56 = 3 ∨ w.toNat / 2 ^ 56 = 6 ∨ w.toNat / 2 ^ 56 = 7 then some 0 else none }

/-- Log entry 3 (the model's choice): where the host has issued nothing, a step leaves the state as it is. -/
def Obligations.BlockWaitsWithoutCommand : Prop :=
  ∀ s : State, s.input = [] → step s = .next s

/-! ### Reset -/

/-- 10_state.md R47: what power-on reset leaves in every register the rule gives a value for, under every build. -/
def Obligations.ResetLeavesListedValues : Prop :=
  ∀ b : Build, ∀ s : State, s = State.resetOf b →
    s.cfg.delayed = .any ∧ s.cfg.flagged = .any ∧
    (∀ r ∈ [s.cfg.preBegin, s.cfg.preEnd, s.cfg.postBegin, s.cfg.postEnd], r.en = false ∧ r.val = 0) ∧
    (∀ q : Quantity, (s.cfg.lo.get q).en = false ∧ (s.cfg.lo.get q).val = 0 ∧ (s.cfg.hi.get q).en = false ∧
      (s.cfg.hi.get q).val = 0) ∧
    RunStart s ∧ s.cmdErr = false ∧ s.build = b

/-- 70_reset_and_hazards.md R330: power-on reset asserted between two commands. -/
def Obligations.PowerOnResetStep : Prop :=
  ∀ (s : State) (rest : List HostItem), s.input = .powerOnReset :: rest →
    ∃ t, step s = .next t ∧ RunStart t ∧ t.cfg = cfgReset ∧ t.cmdErr = false ∧ t.build = s.build ∧ t.input = rest ∧
      t.resp = none

/-- 44_stream_control.md R243, 70_reset_and_hazards.md R331: RESET_RUN starts a run in every phase, and keeps the
configuration. -/
def Obligations.ResetRunStartsRun : Prop :=
  ∀ (sel : BitVec 8) (data : BitVec 40) (s : State),
    ∃ t, exec (.resetRun sel data) s = .next t ∧ RunStart t ∧ t.cmdErr = false ∧ t.cfg = s.cfg ∧ t.build = s.build ∧
      t.input = s.input ∧ t.resp = none

/-- 30_encoding.md R82, 40_frame_codec.md R112: a block exists exactly for the layouts FIELDMAP_CHECK passes, and it starts at
reset. -/
def Obligations.OnlyWellFormedLayoutsAreBuilt : Prop :=
  ∀ b : Build, (layoutOk b.layout = true → buildBlock b = .next (State.resetOf b)) ∧
    (layoutOk b.layout = false → buildBlock b = .fault .illFormedLayout)

/-! ### Commands that complete -/

/-- 44_stream_control.md R242: NOP has no effect; the response port then holds none (log entry 4). -/
def Obligations.NopChangesNothing : Prop :=
  ∀ (sel : BitVec 8) (data : BitVec 40) (s : State), exec (.nop sel data) s = .next { s with resp := none }

/-- 60_exceptions.md R303, R304: a reserved opcode, with any SEL, RSV and DATA, sets CMD_ERR, returns no response and changes
nothing else. -/
def Obligations.ReservedOpcodeSetsCmdErr : Prop :=
  ∀ (opc sel rsv : BitVec 8) (data : BitVec 40) (s : State), 8 ≤ opc.toNat →
    exec (.reservedOpc opc sel rsv data) s = .next { s with cmdErr := true, resp := none }

/-- 44_stream_control.md R244: outside RUN, a write of a writable select with a storable value stores the DATA bits the register
uses, every other register reads as before, and nothing else changes; any other write sets CMD_ERR alone. -/
def Obligations.WrcfgWritesOneRegister : Prop :=
  ∀ (sel : BitVec 8) (data : BitVec 40) (s : State),
    (s.phase ≠ .run → ¬ BadWrite sel data →
      ∃ c : Cfg, exec (.wrcfg sel data) s = .next { s with cfg := c, resp := none } ∧
        cfgValue s.build c sel = some (data &&& usedDataBits sel) ∧
        ∀ other : BitVec 8, other ≠ sel → cfgValue s.build c other = cfgValue s.build s.cfg other) ∧
    (s.phase = .run ∨ BadWrite sel data → exec (.wrcfg sel data) s = .next { s with cmdErr := true, resp := none })

/-- 44_stream_control.md R245, 10_state.md R28, R29: RDCFG of every writable register, of ID, of LAYOUT_ID, and of a reserved
select. -/
def Obligations.RdcfgReturnsRegister : Prop :=
  ∀ (data : BitVec 40) (s : State),
    (∀ row ∈
      [(0x00, policyNumber s.cfg.delayed), (0x01, policyNumber s.cfg.flagged),
       (0x02, enRegNumber s.cfg.preBegin), (0x03, enRegNumber s.cfg.preEnd),
       (0x04, enRegNumber s.cfg.postBegin), (0x05, enRegNumber s.cfg.postEnd),
       (0x08, enRegNumber s.cfg.lo.chanA), (0x09, enRegNumber s.cfg.lo.chanB), (0x0A, enRegNumber s.cfg.lo.chanC),
       (0x0B, enRegNumber s.cfg.lo.chanD), (0x0C, enRegNumber s.cfg.lo.sum),
       (0x10, enRegNumber s.cfg.hi.chanA), (0x11, enRegNumber s.cfg.hi.chanB), (0x12, enRegNumber s.cfg.hi.chanC),
       (0x13, enRegNumber s.cfg.hi.chanD), (0x14, enRegNumber s.cfg.hi.sum),
       (0x3F, 0x0150495054)],
      exec (.rdcfg (BitVec.ofNat 8 row.1) data) s = .next { s with resp := some (BitVec.ofNat 40 row.2) }) ∧
    (layoutOk s.build.layout = true →
      exec (.rdcfg 0x3E data) s = .next { s with resp := some (BitVec.ofNat 40
        (s.build.layout.offMarker + 16 * s.build.layout.offFlag + 256 * s.build.layout.offDelayed +
          4096 * s.build.layout.offChan + 65536 * s.build.layout.offHold)) }) ∧
    ∀ sel : BitVec 8, sel.toNat ∉ readableSelects →
      exec (.rdcfg sel data) s = .next { s with cmdErr := true, resp := some 0 }

/-- 44_stream_control.md R253, 20_memory.md R70: RDSTAT of each of the six selects, and of a reserved one. -/
def Obligations.RdstatReturnsStatus : Prop :=
  ∀ (data : BitVec 40) (s : State),
    (∀ row ∈
      [(0, phaseNumber s.phase + 4 * bitNumber s.errWordcount + 8 * bitNumber s.errOdd + 16 * bitNumber s.cmdErr +
          32 * s.frameCnt.toNat + 256 * bitNumber s.pendValid),
       (1, s.rawIdx.toNat), (2, s.singleIdx.toNat), (3, s.evtIdx.toNat), (4, s.keptIdx.toNat), (5, s.emitCnt.toNat)],
      exec (.rdstat (BitVec.ofNat 8 row.1) data) s = .next { s with resp := some (BitVec.ofNat 40 row.2) }) ∧
    ∀ sel : BitVec 8, 5 < sel.toNat → exec (.rdstat sel data) s = .next { s with cmdErr := true, resp := some 0 }

/-- 44_stream_control.md R252, 20_memory.md R71: RDDIAG of the count, of a valid sample, of a slot that holds none, and of a
reserved select. -/
def Obligations.RddiagReturnsDiagnostics : Prop :=
  ∀ (data : BitVec 40) (s : State),
    (∀ row ∈ [(0, s.diagSig), (64, s.diagPair), (128, s.diagCont)],
      exec (.rddiag (BitVec.ofNat 8 (row.1 + 7)) data) s =
        .next { s with resp := some (BitVec.ofNat 40 row.2.cnt.toNat) } ∧
      ∀ j : Fin 5, exec (.rddiag (BitVec.ofNat 8 (row.1 + j.val)) data) s = .next { s with
        resp := some (if j.val < row.2.cnt.toNat then BitVec.ofNat 40 (2 ^ 39 + row.2.sample[j].toNat) else 0) }) ∧
    ∀ sel : BitVec 8, 3 ≤ sel.toNat / 64 ∨ sel.toNat / 8 % 8 ≠ 0 ∨ sel.toNat % 8 = 5 ∨ sel.toNat % 8 = 6 →
      exec (.rddiag sel data) s = .next { s with cmdErr := true, resp := some 0 }

/-- 44_stream_control.md R251, 60_exceptions.md R300, R301: what END leaves, WORDCOUNT before ODD; a repeated END sets CMD_ERR
alone. -/
def Obligations.EndClosesRun : Prop :=
  ∀ (sel : BitVec 8) (data : BitVec 40) (s : State),
    exec (.endRun sel data) s =
      if s.phase = .doneOk ∨ s.phase = .doneErr then .next { s with cmdErr := true, resp := none }
      else if s.frameCnt ≠ 0 then .next { s with errWordcount := true, phase := .doneErr, resp := none }
      else if s.pendValid = true then .next { s with errOdd := true, phase := .doneErr, resp := none }
      else .next { s with phase := .doneOk, resp := none }

/-! ### PUSH and the frame words -/

/-- Log entry 6 (the model's choice): a frame word standing alone on the port does what the PUSH of that word does. -/
def Obligations.FrameWordIsPushOfThatWord : Prop :=
  ∀ (i : Instr) (w : Word) (sel : BitVec 8) (high : BitVec 24) (s : State), i.pushedWord = some w →
    exec i s = exec (.push sel (high ++ w)) s

/-- 44_stream_control.md R246, 43_selection.md R201: a word outside the pre-decode window counts in RAW_IDX, moves PHASE to RUN
and does nothing else. For a lone frame word this is the model's choice of log entry 6. -/
def Obligations.PushOutsideWindowOnlyCounts : Prop :=
  ∀ (i : Instr) (w : Word) (s : State), i.pushedWord = some w → TakesWords s → ¬ InWindow s.cfg s.rawIdx.toNat →
    exec i s = .next { s with phase := .run, rawIdx := s.rawIdx + 1, resp := none }

/-- 44_stream_control.md R246, R247: an accepted word that does not complete its frame is stored at FRAME_CNT. For a
lone frame word this is the model's choice of log entry 6. -/
def Obligations.PushStoresWordOfFrame : Prop :=
  ∀ (i : Instr) (w : Word) (s : State), i.pushedWord = some w → TakesWords s → InWindow s.cfg s.rawIdx.toNat →
    s.frameCnt.toNat < 4 →
    ∃ t, exec i s = .next t ∧
      t = { s with phase := .run, rawIdx := s.rawIdx + 1, resp := none, frameCnt := s.frameCnt + 1, frameBuf := t.frameBuf } ∧
      ∀ k : Fin 5, t.frameBuf[k] = if k.val = s.frameCnt.toNat then w else s.frameBuf[k]

/-- 44_stream_control.md R247, R248: the fifth word of a frame, with no pending Single: the frame is decoded into PEND_A and the
places of its framing violations are recorded. For a lone frame word this is the model's choice of log entry 6. -/
def Obligations.PushCompletesSideA : Prop :=
  ∀ (i : Instr) (w : Word) (s : State) (f : Frame), i.pushedWord = some w → TakesWords s → InWindow s.cfg s.rawIdx.toNat →
    s.frameCnt = 4 → s.pendValid = false → f = s.frameBuf.set 4 w →
    exec i s = .next { s with
      phase := .run, rawIdx := s.rawIdx + 1, resp := none, frameBuf := f, frameCnt := 0, singleIdx := s.singleIdx + 1
      pendA := decode5 s.build.layout f, pendValid := true
      diagSig := recordList s.diagSig (framingPlaces f (5 * s.singleIdx.toNat)) }

/-- 44_stream_control.md R248, R249: the fifth word of a frame, with a pending Single: the Event is formed, checked for collision
(42_validator.md R164) and continuity (R166 to R171), kept as PREV, filtered (43_selection.md R206), and emitted where the final
window takes it. For a lone frame word this is the model's choice of log entry 6. -/
def Obligations.PushCompletesEvent : Prop :=
  ∀ (i : Instr) (w : Word) (s : State) (f : Frame) (e : Event), i.pushedWord = some w → TakesWords s →
    InWindow s.cfg s.rawIdx.toNat → s.frameCnt = 4 → s.pendValid = true → s.evtIdx.toNat ≠ nEvtMax →
    f = s.frameBuf.set 4 w →
    e = { a := s.pendA, b := decode5 s.build.layout f, position := s.evtIdx.setWidth 32, status := 0 } →
    ∃ t, exec i s = .next t ∧
      t = { s with
        phase := .run, rawIdx := s.rawIdx + 1, resp := none, frameBuf := f, frameCnt := 0, singleIdx := s.singleIdx + 1
        pendValid := false, evtIdx := s.evtIdx + 1, prev := e, prevValid := true, diagSig := t.diagSig
        diagPair := t.diagPair, diagCont := t.diagCont, keptIdx := t.keptIdx, emitCnt := t.emitCnt, out := t.out } ∧
      t.diagSig = recordList s.diagSig (framingPlaces f (5 * s.singleIdx.toNat)) ∧
      (Collides e → t.diagPair = recordIn s.diagPair (e.position.setWidth 36)) ∧
      (¬ Collides e → t.diagPair = s.diagPair) ∧
      (s.prevValid = true ∧ ¬ Continues s.build.holdMarkerCmp s.prev e →
        t.diagCont = recordIn s.diagCont (e.position.setWidth 36)) ∧
      (s.prevValid = false ∨ Continues s.build.holdMarkerCmp s.prev e → t.diagCont = s.diagCont) ∧
      (¬ Kept s.cfg e → t.keptIdx = s.keptIdx ∧ t.out = s.out ∧ t.emitCnt = s.emitCnt) ∧
      (Kept s.cfg e → t.keptIdx = s.keptIdx + 1) ∧
      (Kept s.cfg e → InFinalWindow s.cfg s.keptIdx.toNat → t.out = s.out ++ [e] ∧ t.emitCnt = s.emitCnt + 1) ∧
      (Kept s.cfg e → ¬ InFinalWindow s.cfg s.keptIdx.toNat → t.out = s.out ∧ t.emitCnt = s.emitCnt)

/-- 44_stream_control.md R250, 42_validator.md R173: recording a list of positions, one after the other, keeps the total count and
the first five positions. -/
def Obligations.RecordKeepsFirstFivePositions : Prop :=
  ∀ (c : Check) (ps : List Nat) (s : State), (s.diag c).cnt.toNat + ps.length < 2 ^ 36 → (∀ p ∈ ps, p < 2 ^ 36) →
    diagReport ((recordAll c ps s).diag c) =
      { count := (s.diag c).cnt.toNat + ps.length, samples := ((diagReport (s.diag c)).samples ++ ps).take 5 }

/-! ### Illegal commands, refusals and the status bits -/

/-- 60_exceptions.md R304: an illegal command sets CMD_ERR, returns 0 if it reads, and changes nothing else. That a
lone frame word can be such a command is the model's choice of log entry 6. -/
def Obligations.IllegalCommandOnlySetsCmdErr : Prop :=
  ∀ (i : Instr) (s : State), i.WellFormed → Illegal s i →
    exec i s = .next { s with cmdErr := true, resp := if i.reads then some 0 else none }

/-- 10_state.md R42: CMD_ERR is 0 at reset, set by every illegal command (a word the decoder rejects among them), cleared by
RESET_RUN and by power-on reset, and kept by every other command. That the decoder rejects such a word is log entry 7, and that
a lone frame word is a PUSH is log entry 6, both the model's choice. -/
def Obligations.CmdErrIsStickyAndExact : Prop :=
  State.reset.cmdErr = false ∧
  ∀ (s t : State) (item : HostItem) (rest : List HostItem), s.input = item :: rest → step s = .next t →
    (t.cmdErr = true ↔
      ∃ p, item = .word p ∧
        ((∃ err, decode p = .error err) ∨
          ∃ i, decode p = .ok i ∧ i.isResetRun = false ∧ (s.cmdErr = true ∨ Illegal s i)))

/-- 44_stream_control.md R263: an instruction is refused exactly when it pushes a word beyond the capacity of the run, and none
faults. For a lone frame word this is the model's choice of log entry 6. -/
def Obligations.OnlyCapacityIsRefused : Prop :=
  ∀ (i : Instr) (s : State),
    ((∃ r, exec i s = .refused r) ↔
      (∃ w, i.pushedWord = some w) ∧ (s.phase = .idle ∨ s.phase = .run) ∧
        (s.rawIdx.toNat = nRawMax ∨
          (InWindow s.cfg s.rawIdx.toNat ∧ 4 ≤ s.frameCnt.toNat ∧ s.pendValid = true ∧ s.evtIdx.toNat = nEvtMax))) ∧
    ∀ f, exec i s ≠ .fault f

/-- 60_exceptions.md R309: one command causes at most one of an illegal-command mark, a fatal error, and violation records. -/
def Obligations.OneCommandOneKindOfEvent : Prop :=
  ∀ (i : Instr) (s t : State), i.isResetRun = false → exec i s = .next t →
    let marked := t.cmdErr ≠ s.cmdErr
    let failed := t.errWordcount ≠ s.errWordcount ∨ t.errOdd ≠ s.errOdd
    let recorded := t.diagSig ≠ s.diagSig ∨ t.diagPair ≠ s.diagPair ∨ t.diagCont ≠ s.diagCont
    ¬ (marked ∧ failed) ∧ ¬ (marked ∧ recorded) ∧ ¬ (failed ∧ recorded)

/-- 20_memory.md R65: a reading command changes nothing but the response and, on an illegal select, CMD_ERR; repeated, it returns
the same value and changes nothing more. -/
def Obligations.ReadsAreIdempotent : Prop :=
  ∀ (i : Instr) (s t : State), i.reads = true → exec i s = .next t →
    t = { s with resp := t.resp, cmdErr := t.cmdErr } ∧ (¬ Illegal s i → t.cmdErr = s.cmdErr) ∧ exec i t = .next t

/-- 70_reset_and_hazards.md R334: during a run WRCFG is illegal and no instruction changes a configuration register; outside a
run WRCFG alone does. -/
def Obligations.ConfigurationIsFrozenInRun : Prop :=
  (∀ (sel : BitVec 8) (data : BitVec 40) (s : State), s.phase = .run →
    exec (.wrcfg sel data) s = .next { s with cmdErr := true, resp := none }) ∧
  ∀ (i : Instr) (s t : State), exec i s = .next t →
    (s.phase = .run → t.cfg = s.cfg) ∧ (t.cfg ≠ s.cfg → i.isWrcfg = true)

/-- 30_encoding.md R82, 70_reset_and_hazards.md R330: no step changes the build parameters. -/
def Obligations.BuildNeverChanges : Prop :=
  ∀ s t : State, step s = .next t → t.build = s.build

/-- 70_reset_and_hazards.md R337, 20_memory.md R67: after END only RESET_RUN changes anything but CMD_ERR, the configuration and the
response. -/
def Obligations.RunIsFinalAfterEnd : Prop :=
  ∀ (i : Instr) (s t : State), s.phase = .doneOk ∨ s.phase = .doneErr → i.isResetRun = false → exec i s = .next t →
    t = { s with cmdErr := t.cmdErr, cfg := t.cfg, resp := t.resp }

/-- 10_state.md R45, 60_exceptions.md R309: OUT is emptied by RESET_RUN, gains at most one Event, and gains one only from a pushed
word, a lone frame word being one by the model's choice of log entry 6. -/
def Obligations.OnlyPushedWordsEmit : Prop :=
  ∀ (i : Instr) (s t : State), i.isResetRun = false → exec i s = .next t →
    t.out = s.out ∨ ∃ e w, t.out = s.out ++ [e] ∧ i.pushedWord = some w

/-- 44_stream_control.md R260, 60_exceptions.md R302: the result of a run is defined exactly after END, and an error carries no
Events and no diagnostics. -/
def Obligations.ResultIsDefinedAfterEnd : Prop :=
  ∀ s : State, PhaseInv s →
    (s.result.isSome = true ↔ s.phase = .doneOk ∨ s.phase = .doneErr) ∧
    (s.phase = .doneErr → s.result = some (.error (if s.errWordcount = true then .wordcount else .odd)))

/-! ### The frame codec -/

/-- 30_encoding.md R82, 40_frame_codec.md R112: the two forms of the layout check agree on every layout. -/
def Obligations.LayoutCheckIsFieldmapCheck : Prop :=
  ∀ l : Layout, layoutOk l = fieldmapCheck (fieldMap l)

/-- 30_encoding.md R82: the well-formed layouts are the 6 orderings of the W0 fields times the 2 orderings of the WC fields. -/
def Obligations.TwelveWellFormedLayouts : Prop :=
  ∀ l : Layout, layoutOk l = true ↔
    (l.offMarker, l.offFlag, l.offDelayed) ∈ [(0, 6, 12), (0, 7, 6), (6, 0, 12), (7, 0, 6), (1, 7, 0), (7, 1, 0)] ∧
      (l.offChan, l.offHold) ∈ [(0, 12), (1, 0)]

/-- 40_frame_codec.md R118: decoding a frame and encoding it again gives the frame, under every well-formed layout. -/
def Obligations.EncodeOfDecodedFrameIsFrame : Prop :=
  ∀ (l : Layout) (w : Frame), layoutOk l = true → encode5 l (decode5 l w) = w

/-- 40_frame_codec.md R117, R119: each word of an encoded Single as a number, every field at its place; and encoding a Single and
decoding it again gives the Single with its sum recomputed. -/
def Obligations.DecodeOfEncodedSingleRecomputesSum : Prop :=
  ∀ (l : Layout) (x : Single), layoutOk l = true →
    (encode5 l x)[0].toNat = x.check[0].toNat * 2 ^ 13 + x.delayed.toNat * 2 ^ l.offDelayed +
      x.flag.toNat * 2 ^ l.offFlag + x.marker.toNat * 2 ^ l.offMarker ∧
    (∀ j : Fin 4, (encode5 l x)[j.succ].toNat = x.check[j.succ].toNat * 2 ^ 13 + x.hold[j].toNat * 2 ^ l.offHold +
      x.chan[j].toNat * 2 ^ l.offChan) ∧
    decode5 l (encode5 l x) = { x with sum := sumChan x.chan }

/-- 40_frame_codec.md R114, R115: where DECODE5 takes each field from, as a number; and the sum, exact and at most 16380. -/
def Obligations.DecodeReadsFieldsFromTheirPlaces : Prop :=
  ∀ (l : Layout) (w : Frame) (x : Single), x = decode5 l w →
    x.marker.toNat = w[0].toNat / 2 ^ l.offMarker % 64 ∧
    x.flag.toNat = w[0].toNat / 2 ^ l.offFlag % 64 ∧
    x.delayed.toNat = w[0].toNat / 2 ^ l.offDelayed % 2 ∧
    (∀ k : Fin 5, x.check[k].toNat = w[k].toNat / 2 ^ 13 % 8) ∧
    (∀ j : Fin 4, x.chan[j].toNat = w[j.succ].toNat / 2 ^ l.offChan % 4096 ∧
      x.hold[j].toNat = w[j.succ].toNat / 2 ^ l.offHold % 2) ∧
    x.sum.toNat = x.chan[0].toNat + x.chan[1].toNat + x.chan[2].toNat + x.chan[3].toNat ∧ x.sum.toNat ≤ 16380

/-- 30_encoding.md R85, 42_validator.md R161: a decoded check value passes the signature test at an index exactly when the word's
class is legal there, under every layout. -/
def Obligations.SignatureTestFollowsWordClass : Prop :=
  ∀ (l : Layout) (w : Frame) (k : Fin 5),
    sigOk k (decode5 l w).check[k] = (decodeFrameWord w[k]).legalAtIndex k

/-- 40_frame_codec.md R122: with no crop and no filter, serializing the Events of a buffer gives the buffer back. -/
def Obligations.SerializeOfDecodedBufferIsBuffer : Prop :=
  ∀ (l : Layout) (w : List Word), layoutOk l = true → w.length % 10 = 0 →
    ∃ xs es, decodeBuf l w = .ok xs ∧ pair xs = .ok es ∧ es.length = w.length / 10 ∧ serialize l es = w

/-- 41_event_codec.md R143: pairing and unpairing. That position 2^32 and those after it are counted modulo 2^32, in sequences no run
reaches, is the model's choice of log entry 29. -/
def Obligations.PairAndUnpairAreInverse : Prop :=
  (∀ xs : List Single, xs.length % 2 = 0 → ∃ es, pair xs = .ok es ∧ unpair es = xs ∧ es.length = xs.length / 2) ∧
  (∀ es : List Event, (∀ k (h : k < es.length), es[k].position = BitVec.ofNat 32 k ∧ es[k].status = 0) →
    pair (unpair es) = .ok es)

/-- 20_memory.md R61: two bytes make a word by the formula of the byte order, the rest of a buffer likewise; and words
turned into bytes and back by one byte order are the same words. 44_stream_control.md R262 has the host report an odd byte count;
that such a buffer then gives no words at all is the model's choice of log entry 20. -/
def Obligations.ByteOrderRoundTrip : Prop :=
  (∀ (b0 b1 : Byte) (rest : List Byte), wordsOfBytes .little (b0 :: b1 :: rest) =
    (wordsOfBytes .little rest).map fun ws => BitVec.ofNat 16 (b0.toNat + 256 * b1.toNat) :: ws) ∧
  (∀ (b0 b1 : Byte) (rest : List Byte), wordsOfBytes .big (b0 :: b1 :: rest) =
    (wordsOfBytes .big rest).map fun ws => BitVec.ofNat 16 (256 * b0.toNat + b1.toNat) :: ws) ∧
  (∀ (o : ByteOrder) (b : Byte), wordsOfBytes o [] = some [] ∧ wordsOfBytes o [b] = none) ∧
  ∀ (o : ByteOrder) (ws : List Word), wordsOfBytes o (bytesOfWords o ws) = some ws

/-! ### The validator and the selection -/

/-- 42_validator.md R169: the increment and the wraparound together are the increment by 1 modulo 64, and the verdict is the same
where both differences are taken modulo 64 or modulo 256. -/
def Obligations.IncrementOrWrapIsModulo64 : Prop :=
  ∀ (p c : Event) (m n : Nat), m = (effmark p).toNat → n = (effmark c).toNat →
    ((incrOk p c || wrapOk p c) = true ↔ (n + 64 - m) % 64 = 1) ∧
    ((incrOk p c || wrapOk p c) = true ↔ (n + 64 - m) % 64 = 1 ∨ (m + 64 - n) % 64 = 63) ∧
    ((incrOk p c || wrapOk p c) = true ↔ (n + 256 - m) % 256 = 1 ∨ (m + 256 - n) % 256 = 63)

/-- 42_validator.md R166, R167, R168, R170, R171: the effective marker, the increment, the wraparound, the hold exception under each
setting of HOLD_MARKER_CMP, and the verdict made of them, each in fields and numbers. -/
def Obligations.ContinuityVerdictIsExact : Prop :=
  ∀ (h : HoldMarkerCmp) (p c : Event),
    (effmark c).toNat = liveMarker c ∧
    (incrOk p c = true ↔ (liveMarker c : Int) - liveMarker p = 1) ∧
    (wrapOk p c = true ↔ (liveMarker p : Int) - liveMarker c = 63) ∧
    (wrapOk p c = true ↔ liveMarker p = 63 ∧ liveMarker c = 0) ∧
    (holdOk h p c = true ↔ HoldExcuses h p c) ∧
    (contOk h p c = true ↔ Continues h p c)

/-- 42_validator.md R164: a collision is reported exactly for equal markers with neither flag 15. -/
def Obligations.PairBadIsMarkerCollision : Prop :=
  ∀ e : Event, pairBad e = true ↔ Collides e

/-- 43_selection.md R200: the crop of any sequence, index by index. -/
def Obligations.CropIsHalfOpenWindow : Prop :=
  ∀ (α : Type) (xs : List α) (lo hi : Option Nat) (k : Nat),
    (crop xs lo hi)[k]? = if lo.getD 0 + k < hi.getD xs.length then xs[lo.getD 0 + k]? else none

/-- 43_selection.md R201: the pre-decode crop keeps exactly the raw words whose index is in the window. -/
def Obligations.PreCropKeepsWordsInWindow : Prop :=
  ∀ (c : Cfg) (raw : List Word),
    preCrop c raw = (raw.zipIdx.filter fun wr => inPre c wr.2).map Prod.fst

/-- 43_selection.md R203, R204: the three policies over the delayed bits and over the hold bits; every Event passes exactly one
of require_false and require_true. -/
def Obligations.PoliciesAreComplements : Prop :=
  ∀ (c : Cfg) (e : Event),
    delayedOk { c with delayed := .any } e = true ∧ flaggedOk { c with flagged := .any } e = true ∧
    (delayedOk { c with delayed := .requireFalse } e = true ↔ e.a.delayed = 0 ∧ e.b.delayed = 0) ∧
    (delayedOk { c with delayed := .requireTrue } e = true ↔ e.a.delayed = 1 ∨ e.b.delayed = 1) ∧
    (flaggedOk { c with flagged := .requireFalse } e = true ↔ ∀ (side : Side) (j : Fin 4), (e.side side).hold[j] = 0) ∧
    (flaggedOk { c with flagged := .requireTrue } e = true ↔ ∃ (side : Side) (j : Fin 4), (e.side side).hold[j] = 1) ∧
    delayedOk { c with delayed := .requireTrue } e = !delayedOk { c with delayed := .requireFalse } e ∧
    flaggedOk { c with flagged := .requireTrue } e = !flaggedOk { c with flagged := .requireFalse } e

/-- 43_selection.md R205: the bounds of a quantity in full: each enabled bound is an inclusive two's-complement integer, and each side
must pass by itself. Equal bounds keep one value, a lower bound above the upper keeps nothing, a negative lower bound alone
keeps everything, a negative upper bound nothing. -/
def Obligations.BoundsAreInclusivePerSide : Prop :=
  ∀ (c : Cfg) (e : Event) (q : Quantity),
    (boundOk c e q = true ↔ BoundsKeep c q (fieldNumber e.a q) ∧ BoundsKeep c q (fieldNumber e.b q)) ∧
    (∀ v : Nat, (c.lo.get q).en = true → (c.hi.get q).en = true → signedNumber (c.lo.get q).val = v →
      signedNumber (c.hi.get q).val = v → (boundOk c e q = true ↔ fieldNumber e.a q = v ∧ fieldNumber e.b q = v)) ∧
    ((c.lo.get q).en = true → (c.hi.get q).en = true → signedNumber (c.hi.get q).val < signedNumber (c.lo.get q).val →
      boundOk c e q = false) ∧
    ((c.lo.get q).en = true → (c.hi.get q).en = false → signedNumber (c.lo.get q).val < 0 → boundOk c e q = true) ∧
    ((c.hi.get q).en = true → signedNumber (c.hi.get q).val < 0 → boundOk c e q = false)

/-- 43_selection.md R206: the filter's verdict is the conjunction of both policies and the bounds of all five quantities; the reset
configuration keeps every Event. -/
def Obligations.KeepIsConjunction : Prop :=
  ∀ (c : Cfg) (e : Event), (keep c e = true ↔ Kept c e) ∧ keep cfgReset e = true

/-- 30_encoding.md R93: the bound a host writes for a threshold keeps the same field values as the threshold. -/
def Obligations.HostThresholdsKeepSameValues : Prop :=
  ∀ (t : Rat) (v : Nat), v ≤ 16380 →
    ((hostLowerBound t).toInt ≤ (v : Int) ↔ t ≤ (v : Rat)) ∧ ((v : Int) ≤ (hostUpperBound t).toInt ↔ (v : Rat) ≤ t)

/-- 30_encoding.md R96, R93: the line WRCFG of a bound register with an integer in the 32-bit signed range, assembled and run outside
RUN, leaves that bound enabled at that integer. -/
def Obligations.AssembledBoundIsTheInteger : Prop :=
  ∀ (l : Layout) (q : Quantity) (upper : Bool) (v : Int) (s : State), s.phase ≠ .run → -(2 ^ 31) ≤ v → v < 2 ^ 31 →
    ∃ i c, assemble l (.wrcfg (cfgSelOf (if upper = true then .hi q else .lo q)) (.int v)) = some [i] ∧
      exec i s = .next { s with cfg := c, resp := none } ∧
      (((if upper = true then c.hi else c.lo).get q).en = true) ∧
      ((if upper = true then c.hi else c.lo).get q).val.toInt = v

/-! ### Invariants and whole runs -/

/-- The invariants hold at reset, under every build. -/
def Obligations.InvariantsHoldAtReset : Prop :=
  ∀ b : Build, RunInv (State.resetOf b) ∧ RecordInv (State.resetOf b)

/-- 40_frame_codec.md R120, 41_event_codec.md R144: every step keeps every readable record exact, with status 0. -/
def Obligations.StepKeepsRecordsExact : Prop :=
  ∀ s t : State, RecordInv s → step s = .next t → RecordInv t

/-- 44_stream_control.md R263, R250; 41_event_codec.md R141; 20_memory.md R66; 60_exceptions.md R301: every step keeps the
counters in agreement, OUT in position order, the diagnostics bounded and rising, and PHASE in agreement with the error bits. -/
def Obligations.StepKeepsRunInvariant : Prop :=
  ∀ s t : State, RunInv s → step s = .next t → RunInv t

/-- 10_state.md R49: no rule reads an unwritten guarded register. Two states that differ only there answer every step alike. -/
def Obligations.GuardedContentsAreNeverRead : Prop :=
  ∀ s t : State, SameVisible s t → OutcomesAgree SameVisible (step s) (step t)

/-- 60_exceptions.md R305, 42_validator.md R160: the diagnostics change nothing but themselves and what RDDIAG returns. -/
def Obligations.DiagnosticsNeverAffectTheRun : Prop :=
  ∀ s t : State, SameButDiagnostics s t → OutcomesAgree SameButDiagnostics (step s) (step t)

/-- 44_stream_control.md R265: from any state in which a run begins, the pushes of a word sequence and END, with NOPs, reads and
illegal commands interleaved, give the result of the batch function on that sequence; and what is interleaved changes nothing
but CMD_ERR and the response. That a lone frame word too can push a word is the model's choice of log entry 6. -/
def Obligations.StreamingEqualsBatch : Prop :=
  (∀ (s : State) (items tail : List HostItem) (raw : List Word),
    RunStart s → s.input = items ++ tail → Session false items raw → WithinCapacity s.cfg raw →
    ∃ t : State, Host.Core.run Sys2Proof.core items.length s = .next t ∧
      t.result = some (runBatch s.build s.cfg raw) ∧ t.input = tail) ∧
  ∀ (started : Bool) (i : Instr) (s t : State), Interleaved started i → (started = true → s.phase = .run) →
    exec i s = .next t → t = { s with cmdErr := t.cmdErr, resp := t.resp }
end

