-- ==== Sys2Proof/Laws/Encoding.lean ====
section
/-!
SUPPORT. Laws/Encoding.lean: the fields of a command word and of a frame word, and the words put together from them.
-/
namespace Sys2Proof

/-- The four fields of a command word do not overlap. -/
theorem toNat_commandWord (opc sel rsv : BitVec 8) (data : BitVec 40) :
    (commandWord opc sel rsv data).toNat =
      opc.toNat * 2 ^ 56 + sel.toNat * 2 ^ 48 + rsv.toNat * 2 ^ 40 + data.toNat := by
  unfold commandWord
  simp only [BitVec.toNat_append]
  rw [← Nat.shiftLeft_add_eq_or_of_lt (by omega), ← Nat.shiftLeft_add_eq_or_of_lt (by omega),
    ← Nat.shiftLeft_add_eq_or_of_lt (by omega)]
  simp only [Nat.shiftLeft_eq]
  omega

/-- Each field of a command word put together is what was put there. -/
theorem fields_commandWord (opc sel rsv : BitVec 8) (data : BitVec 40) :
    cmdOpc (commandWord opc sel rsv data) = opc ∧ cmdSel (commandWord opc sel rsv data) = sel ∧
      cmdRsv (commandWord opc sel rsv data) = rsv ∧ cmdData (commandWord opc sel rsv data) = data := by
  have := opc.isLt; have := sel.isLt; have := rsv.isLt; have := data.isLt
  refine ⟨?_, ?_, ?_, ?_⟩ <;> apply BitVec.eq_of_toNat_eq <;>
    simp only [cmdOpc, cmdSel, cmdRsv, cmdData, BitVec.extractLsb'_toNat, toNat_commandWord,
      Nat.shiftRight_eq_div_pow] <;> omega

/-- A command word is its four fields put together: no bit is left out. -/
theorem commandWord_fields (w : CmdWord) : commandWord (cmdOpc w) (cmdSel w) (cmdRsv w) (cmdData w) = w := by
  have := w.isLt
  apply BitVec.eq_of_toNat_eq
  rw [toNat_commandWord]
  simp only [cmdOpc, cmdSel, cmdRsv, cmdData, BitVec.extractLsb'_toNat, Nat.shiftRight_eq_div_pow]
  omega

/-- OPC as a number. -/
theorem toNat_cmdOpc (w : CmdWord) : (cmdOpc w).toNat = w.toNat / 2 ^ 56 := by
  have := w.isLt
  simp only [cmdOpc, BitVec.extractLsb'_toNat, Nat.shiftRight_eq_div_pow]
  omega

/-- RSV as a number. -/
theorem toNat_cmdRsv (w : CmdWord) : (cmdRsv w).toNat = w.toNat / 2 ^ 40 % 256 := by
  simp only [cmdRsv, BitVec.extractLsb'_toNat, Nat.shiftRight_eq_div_pow]

/-- The two fields of a frame word do not overlap. -/
theorem toNat_frameWord (c : BitVec 3) (p : BitVec 13) : (frameWord c p).toNat = c.toNat * 2 ^ 13 + p.toNat := by
  unfold frameWord
  rw [BitVec.toNat_append, ← Nat.shiftLeft_add_eq_or_of_lt (by omega), Nat.shiftLeft_eq]

/-- Each field of a frame word put together is what was put there. -/
theorem fields_frameWord (c : BitVec 3) (p : BitVec 13) :
    wordCheck (frameWord c p) = c ∧ wordPayload (frameWord c p) = p := by
  have := c.isLt; have := p.isLt
  constructor <;> apply BitVec.eq_of_toNat_eq <;>
    simp only [wordCheck, wordPayload, BitVec.extractLsb'_toNat, toNat_frameWord, Nat.shiftRight_eq_div_pow] <;> omega

/-- A frame word is its two fields put together. -/
theorem frameWord_fields (w : Word) : frameWord (wordCheck w) (wordPayload w) = w := by
  have := w.isLt
  apply BitVec.eq_of_toNat_eq
  rw [toNat_frameWord]
  simp only [wordCheck, wordPayload, BitVec.extractLsb'_toNat, Nat.shiftRight_eq_div_pow]
  omega

end Sys2Proof
end

