-- ==== Sys2Proof/Laws/Operands.lean ====
section
/-!
SUPPORT. Laws/Operands.lean: the select maps and the register data formats, each against the lists and numbers of Safety.lean.
-/
namespace Sys2Proof.Machine

/-! ### Selects -/

/-- RDCFG knows a select exactly where it is readable. -/
theorem cfgRegOf_isSome (sel : BitVec 8) : (cfgRegOf sel).isSome = true ↔ sel.toNat ∈ readableSelects := by
  revert sel; decide

/-- A select stands for a writable register exactly where it is in the list of writable selects. -/
theorem cfgRegOf_writable (sel : BitVec 8) :
    (∃ r, cfgRegOf sel = some r ∧ r ≠ .layoutId ∧ r ≠ .id) ↔ sel.toNat ∈ writableSelects := by
  have all : ∀ sel : BitVec 8, (match cfgRegOf sel with
      | some r => decide (r ≠ .layoutId ∧ r ≠ .id)
      | none => false) = decide (sel.toNat ∈ writableSelects) := by decide
  have := all sel
  cases h : cfgRegOf sel with
  | none => simp [h] at this; simp [this]
  | some r =>
    rw [h] at this
    have := decide_eq_decide.1 this
    simp only [Option.some.injEq, exists_eq_left', this]

/-- The register of a select gives the select back. -/
theorem cfgSelOf_of_cfgRegOf {sel : BitVec 8} {r : CfgReg} (h : cfgRegOf sel = some r) : sel = cfgSelOf r := by
  have all : ∀ sel : BitVec 8, (match cfgRegOf sel with
      | some r => decide (sel = cfgSelOf r)
      | none => true) = true := by decide
  have := all sel
  rw [h] at this
  exact of_decide_eq_true this

/-- The selects 0 and 1 are the policy registers. -/
theorem sel_le_one_iff {sel : BitVec 8} {r : CfgReg} (h : cfgRegOf sel = some r) :
    sel.toNat ≤ 1 ↔ r = .delayed ∨ r = .flagged := by
  have all : ∀ sel : BitVec 8, (match cfgRegOf sel with
      | some r => decide (sel.toNat ≤ 1 ↔ (r = .delayed ∨ r = .flagged))
      | none => true) = true := by decide
  have := all sel
  rw [h] at this
  exact of_decide_eq_true this

/-- RDDIAG knows no select exactly where it is reserved. -/
theorem diagSelOf_eq_none (sel : BitVec 8) : diagSelOf sel = none ↔
    3 ≤ sel.toNat / 64 ∨ sel.toNat / 8 % 8 ≠ 0 ∨ sel.toNat % 8 = 5 ∨ sel.toNat % 8 = 6 := by
  rw [← Option.isNone_iff_eq_none]
  revert sel; decide

/-- RDSTAT knows no select exactly where it is above 5. -/
theorem statItemOf_eq_none (sel : BitVec 8) : statItemOf sel = none ↔ 5 < sel.toNat := by
  rw [← Option.isNone_iff_eq_none]
  revert sel; decide

/-! ### Register data -/

/-- A policy write: the value 3 is none, and any other reads back as the two bits written. -/
theorem policyOf_data (data : BitVec 40) :
    (data.toNat % 4 = 3 ∧ policyOf (data.extractLsb' 0 2) = none) ∨
    ∃ p, data.toNat % 4 ≠ 3 ∧ policyOf (data.extractLsb' 0 2) = some p ∧ policyData p = data &&& 3 := by
  have hv : (data.extractLsb' 0 2).toNat = data.toNat % 4 := by simp [BitVec.extractLsb'_toNat]
  have ha : (data &&& 3).toNat = data.toNat % 4 := by
    rw [BitVec.toNat_and]; exact Nat.and_two_pow_sub_one_eq_mod _ 2
  unfold policyOf
  rw [hv]
  have : data.toNat % 4 < 4 := by omega
  generalize hn : data.toNat % 4 = n at *
  interval_cases n
  · exact .inr ⟨_, by decide, rfl, BitVec.eq_of_toNat_eq (by rw [ha]; rfl)⟩
  · exact .inr ⟨_, by decide, rfl, BitVec.eq_of_toNat_eq (by rw [ha]; rfl)⟩
  · exact .inr ⟨_, by decide, rfl, BitVec.eq_of_toNat_eq (by rw [ha]; rfl)⟩
  · exact .inl ⟨rfl, rfl⟩

/-- The readback of a policy is its code. -/
theorem policyData_eq (p : Policy) : policyData p = BitVec.ofNat 40 (policyNumber p) := by cases p <;> rfl

/-- The readback of a crop or bound register, as a number. -/
theorem toNat_enRegData (r : EnReg) : (enRegData r).toNat = enRegNumber r := by
  unfold enRegData enRegNumber flagBit
  have := r.val.isLt
  rw [BitVec.toNat_append, BitVec.toNat_append, ← Nat.shiftLeft_add_eq_or_of_lt (by omega)]
  rw [← Nat.shiftLeft_add_eq_or_of_lt (by cases r.en <;> simp)]
  cases r.en <;> simp [Nat.shiftLeft_eq]

/-- The readback of a crop or bound register. -/
theorem enRegData_eq (r : EnReg) : enRegData r = BitVec.ofNat 40 (enRegNumber r) := by
  rw [← toNat_enRegData]; simp

/-- A crop or bound register reads back as the 33 bits written. -/
theorem enRegData_enRegOf (data : BitVec 40) : enRegData (enRegOf data) = data &&& 0x1FFFFFFFF := by
  apply BitVec.eq_of_toNat_eq
  rw [toNat_enRegData, BitVec.toNat_and]
  show _ = data.toNat &&& (2 ^ 33 - 1)
  rw [Nat.and_two_pow_sub_one_eq_mod]
  unfold enRegNumber enRegOf
  simp only [BitVec.extractLsb'_toNat, Nat.shiftRight_zero, BitVec.getLsbD, Nat.testBit_eq_decide_div_mod_eq]
  simp only [decide_eq_true_eq]
  split <;> omega

/-- A bank's register after a write of one of them. -/
theorem Bank.get_set (b : Bank) (q q' : Quantity) (r : EnReg) :
    (b.set q r).get q' = if q' = q then r else b.get q' := by
  cases q <;> cases q' <;> rfl

/-- A write is illegal whatever the phase exactly where `BadWrite` says so. -/
theorem cfgWrite_eq_none (c : Cfg) (sel : BitVec 8) (data : BitVec 40) :
    cfgWrite c sel data = none ↔ BadWrite sel data := by
  unfold cfgWrite BadWrite
  cases h : cfgRegOf sel with
  | none =>
    have := (cfgRegOf_writable sel).not
    simp only [h, reduceCtorEq, false_and, exists_false, not_false_eq_true, true_iff] at this
    simp [this]
  | some r =>
    have hw := cfgRegOf_writable sel
    have hl := sel_le_one_iff h
    have hp := policyOf_data data
    simp only [h, Option.some.injEq, exists_eq_left'] at hw
    rw [← hw]
    cases r with
    | delayed | flagged =>
      have h1 : sel.toNat ≤ 1 := hl.2 (by simp)
      rcases hp with ⟨h3, h4⟩ | ⟨p, h3, h4, _⟩ <;> simp [writeCfg, h3, h4, h1]
    | layoutId | id => simp [writeCfg]
    | preBegin | preEnd | postBegin | postEnd | lo q | hi q =>
      have h1 : ¬ sel.toNat ≤ 1 := fun h => by simpa using hl.1 h
      simp [writeCfg, h1]

/-- An opcode of 0x08 or above does not read. -/
theorem opcReads_of_reserved {opc : BitVec 8} (h : 8 ≤ opc.toNat) : opcReads opc = false := by
  revert opc; decide

/-! ### Phases and windows -/

theorem phaseDone_eq_true {p : Phase} : phaseDone p = true ↔ p = .doneOk ∨ p = .doneErr := by
  cases p <;> simp [phaseDone]

theorem phaseDone_eq_false {p : Phase} : phaseDone p = false ↔ p = .idle ∨ p = .run := by
  cases p <;> simp [phaseDone]

theorem inPre_iff (c : Cfg) (r : Nat) : inPre c r = true ↔ InWindow c r := by
  unfold inPre InWindow
  cases c.preBegin.en <;> cases c.preEnd.en <;> simp

theorem inPost_iff (c : Cfg) (j : Nat) : inPost c j = true ↔ InFinalWindow c j := by
  unfold inPost InFinalWindow
  cases c.postBegin.en <;> cases c.postEnd.en <;> simp

/-! ### Diagnostics -/

theorem DiagInv.mono {d : Diag} {a b : Nat} (h : DiagInv d a) (hab : a ≤ b) : DiagInv d b :=
  ⟨h.count.trans hab, fun j hj => (h.below j hj).trans_le hab, h.rising⟩

/-- One check's diagnostics with no violation. -/
theorem DiagInv.empty (v : Vector (BitVec 36) 5) (b : Nat) : DiagInv { cnt := 0, sample := v } b :=
  ⟨by simp, by simp, by simp⟩

/-- The samples after one record. -/
theorem recordIn_sample (d : Diag) (p : BitVec 36) (j : Fin 5) (_hj : j.val < d.cnt.toNat + 1) :
    (recordIn d p).sample[j] = if j.val = d.cnt.toNat then p else d.sample[j] := by
  show (if d.cnt.toNat < 5 then d.sample.setIfInBounds d.cnt.toNat p else d.sample)[j.val] = _
  by_cases h5 : d.cnt.toNat < 5
  · simp only [h5, if_true]
    rw [Vector.getElem_setIfInBounds]
    simp only [eq_comm]; rfl
  · have := j.isLt
    simp only [h5, if_false]
    exact (if_neg (by omega)).symm

/-- The positions of a Single's framing violations are increasing and inside its five words. -/
theorem sigchkSingle_mem (x : Single) (base : Nat) :
    (sigchkSingle x base).Pairwise (· < ·) ∧ ∀ p ∈ sigchkSingle x base, base ≤ p ∧ p < base + 5 := by
  unfold sigchkSingle
  constructor
  · rw [List.pairwise_map]
    apply List.Pairwise.filter
    simp [wordIndices]
  · intro p hp
    obtain ⟨i, _, rfl⟩ := List.mem_map.1 hp
    have := i.isLt
    omega

end Sys2Proof.Machine
end

