-- ==== Sys2Proof/Laws/State.lean ====
section
/-!
SUPPORT. Laws/State.lean: the fields of State after each named update, one lemma a field, so that no later proof unfolds a
record update.
-/
namespace Sys2Proof.Machine

/-! ### `respond` -/

@[simp] theorem respond_build (r : Option Resp) (s : State) : (respond r s).build = s.build := rfl
@[simp] theorem respond_cfg (r : Option Resp) (s : State) : (respond r s).cfg = s.cfg := rfl
@[simp] theorem respond_phase (r : Option Resp) (s : State) : (respond r s).phase = s.phase := rfl
@[simp] theorem respond_rawIdx (r : Option Resp) (s : State) : (respond r s).rawIdx = s.rawIdx := rfl
@[simp] theorem respond_frameBuf (r : Option Resp) (s : State) : (respond r s).frameBuf = s.frameBuf := rfl
@[simp] theorem respond_frameCnt (r : Option Resp) (s : State) : (respond r s).frameCnt = s.frameCnt := rfl
@[simp] theorem respond_singleIdx (r : Option Resp) (s : State) : (respond r s).singleIdx = s.singleIdx := rfl
@[simp] theorem respond_pendA (r : Option Resp) (s : State) : (respond r s).pendA = s.pendA := rfl
@[simp] theorem respond_pendValid (r : Option Resp) (s : State) : (respond r s).pendValid = s.pendValid := rfl
@[simp] theorem respond_evtIdx (r : Option Resp) (s : State) : (respond r s).evtIdx = s.evtIdx := rfl
@[simp] theorem respond_prev (r : Option Resp) (s : State) : (respond r s).prev = s.prev := rfl
@[simp] theorem respond_prevValid (r : Option Resp) (s : State) : (respond r s).prevValid = s.prevValid := rfl
@[simp] theorem respond_keptIdx (r : Option Resp) (s : State) : (respond r s).keptIdx = s.keptIdx := rfl
@[simp] theorem respond_emitCnt (r : Option Resp) (s : State) : (respond r s).emitCnt = s.emitCnt := rfl
@[simp] theorem respond_diagSig (r : Option Resp) (s : State) : (respond r s).diagSig = s.diagSig := rfl
@[simp] theorem respond_diagPair (r : Option Resp) (s : State) : (respond r s).diagPair = s.diagPair := rfl
@[simp] theorem respond_diagCont (r : Option Resp) (s : State) : (respond r s).diagCont = s.diagCont := rfl
@[simp] theorem respond_errWordcount (r : Option Resp) (s : State) : (respond r s).errWordcount = s.errWordcount := rfl
@[simp] theorem respond_errOdd (r : Option Resp) (s : State) : (respond r s).errOdd = s.errOdd := rfl
@[simp] theorem respond_cmdErr (r : Option Resp) (s : State) : (respond r s).cmdErr = s.cmdErr := rfl
@[simp] theorem respond_out (r : Option Resp) (s : State) : (respond r s).out = s.out := rfl
@[simp] theorem respond_resp (r : Option Resp) (s : State) : (respond r s).resp = r := rfl
@[simp] theorem respond_input (r : Option Resp) (s : State) : (respond r s).input = s.input := rfl
@[simp] theorem respond_freeCtr (r : Option Resp) (s : State) : (respond r s).freeCtr = s.freeCtr := rfl

/-! ### `illegal` -/

@[simp] theorem illegal_build (b : Bool) (s : State) : (illegal b s).build = s.build := rfl
@[simp] theorem illegal_cfg (b : Bool) (s : State) : (illegal b s).cfg = s.cfg := rfl
@[simp] theorem illegal_phase (b : Bool) (s : State) : (illegal b s).phase = s.phase := rfl
@[simp] theorem illegal_rawIdx (b : Bool) (s : State) : (illegal b s).rawIdx = s.rawIdx := rfl
@[simp] theorem illegal_frameBuf (b : Bool) (s : State) : (illegal b s).frameBuf = s.frameBuf := rfl
@[simp] theorem illegal_frameCnt (b : Bool) (s : State) : (illegal b s).frameCnt = s.frameCnt := rfl
@[simp] theorem illegal_singleIdx (b : Bool) (s : State) : (illegal b s).singleIdx = s.singleIdx := rfl
@[simp] theorem illegal_pendA (b : Bool) (s : State) : (illegal b s).pendA = s.pendA := rfl
@[simp] theorem illegal_pendValid (b : Bool) (s : State) : (illegal b s).pendValid = s.pendValid := rfl
@[simp] theorem illegal_evtIdx (b : Bool) (s : State) : (illegal b s).evtIdx = s.evtIdx := rfl
@[simp] theorem illegal_prev (b : Bool) (s : State) : (illegal b s).prev = s.prev := rfl
@[simp] theorem illegal_prevValid (b : Bool) (s : State) : (illegal b s).prevValid = s.prevValid := rfl
@[simp] theorem illegal_keptIdx (b : Bool) (s : State) : (illegal b s).keptIdx = s.keptIdx := rfl
@[simp] theorem illegal_emitCnt (b : Bool) (s : State) : (illegal b s).emitCnt = s.emitCnt := rfl
@[simp] theorem illegal_diagSig (b : Bool) (s : State) : (illegal b s).diagSig = s.diagSig := rfl
@[simp] theorem illegal_diagPair (b : Bool) (s : State) : (illegal b s).diagPair = s.diagPair := rfl
@[simp] theorem illegal_diagCont (b : Bool) (s : State) : (illegal b s).diagCont = s.diagCont := rfl
@[simp] theorem illegal_errWordcount (b : Bool) (s : State) : (illegal b s).errWordcount = s.errWordcount := rfl
@[simp] theorem illegal_errOdd (b : Bool) (s : State) : (illegal b s).errOdd = s.errOdd := rfl
@[simp] theorem illegal_cmdErr (b : Bool) (s : State) : (illegal b s).cmdErr = true := rfl
@[simp] theorem illegal_out (b : Bool) (s : State) : (illegal b s).out = s.out := rfl
@[simp] theorem illegal_resp (b : Bool) (s : State) : (illegal b s).resp = (if b then some 0 else none) := rfl
@[simp] theorem illegal_input (b : Bool) (s : State) : (illegal b s).input = s.input := rfl
@[simp] theorem illegal_freeCtr (b : Bool) (s : State) : (illegal b s).freeCtr = s.freeCtr := rfl

/-! ### `raiseMalformed` -/

@[simp] theorem raiseMalformed_wordcount_build (s : State) : (raiseMalformed .wordcount s).build = s.build := rfl
@[simp] theorem raiseMalformed_wordcount_cfg (s : State) : (raiseMalformed .wordcount s).cfg = s.cfg := rfl
@[simp] theorem raiseMalformed_wordcount_phase (s : State) : (raiseMalformed .wordcount s).phase = .doneErr := rfl
@[simp] theorem raiseMalformed_wordcount_rawIdx (s : State) : (raiseMalformed .wordcount s).rawIdx = s.rawIdx := rfl
@[simp] theorem raiseMalformed_wordcount_frameBuf (s : State) : (raiseMalformed .wordcount s).frameBuf = s.frameBuf := rfl
@[simp] theorem raiseMalformed_wordcount_frameCnt (s : State) : (raiseMalformed .wordcount s).frameCnt = s.frameCnt := rfl
@[simp] theorem raiseMalformed_wordcount_singleIdx (s : State) : (raiseMalformed .wordcount s).singleIdx = s.singleIdx := rfl
@[simp] theorem raiseMalformed_wordcount_pendA (s : State) : (raiseMalformed .wordcount s).pendA = s.pendA := rfl
@[simp] theorem raiseMalformed_wordcount_pendValid (s : State) : (raiseMalformed .wordcount s).pendValid = s.pendValid := rfl
@[simp] theorem raiseMalformed_wordcount_evtIdx (s : State) : (raiseMalformed .wordcount s).evtIdx = s.evtIdx := rfl
@[simp] theorem raiseMalformed_wordcount_prev (s : State) : (raiseMalformed .wordcount s).prev = s.prev := rfl
@[simp] theorem raiseMalformed_wordcount_prevValid (s : State) : (raiseMalformed .wordcount s).prevValid = s.prevValid := rfl
@[simp] theorem raiseMalformed_wordcount_keptIdx (s : State) : (raiseMalformed .wordcount s).keptIdx = s.keptIdx := rfl
@[simp] theorem raiseMalformed_wordcount_emitCnt (s : State) : (raiseMalformed .wordcount s).emitCnt = s.emitCnt := rfl
@[simp] theorem raiseMalformed_wordcount_diagSig (s : State) : (raiseMalformed .wordcount s).diagSig = s.diagSig := rfl
@[simp] theorem raiseMalformed_wordcount_diagPair (s : State) : (raiseMalformed .wordcount s).diagPair = s.diagPair := rfl
@[simp] theorem raiseMalformed_wordcount_diagCont (s : State) : (raiseMalformed .wordcount s).diagCont = s.diagCont := rfl
@[simp] theorem raiseMalformed_wordcount_errWordcount (s : State) : (raiseMalformed .wordcount s).errWordcount = true := rfl
@[simp] theorem raiseMalformed_wordcount_errOdd (s : State) : (raiseMalformed .wordcount s).errOdd = s.errOdd := rfl
@[simp] theorem raiseMalformed_wordcount_cmdErr (s : State) : (raiseMalformed .wordcount s).cmdErr = s.cmdErr := rfl
@[simp] theorem raiseMalformed_wordcount_out (s : State) : (raiseMalformed .wordcount s).out = s.out := rfl
@[simp] theorem raiseMalformed_wordcount_resp (s : State) : (raiseMalformed .wordcount s).resp = none := rfl
@[simp] theorem raiseMalformed_wordcount_input (s : State) : (raiseMalformed .wordcount s).input = s.input := rfl
@[simp] theorem raiseMalformed_wordcount_freeCtr (s : State) : (raiseMalformed .wordcount s).freeCtr = s.freeCtr := rfl
@[simp] theorem raiseMalformed_odd_build (s : State) : (raiseMalformed .odd s).build = s.build := rfl
@[simp] theorem raiseMalformed_odd_cfg (s : State) : (raiseMalformed .odd s).cfg = s.cfg := rfl
@[simp] theorem raiseMalformed_odd_phase (s : State) : (raiseMalformed .odd s).phase = .doneErr := rfl
@[simp] theorem raiseMalformed_odd_rawIdx (s : State) : (raiseMalformed .odd s).rawIdx = s.rawIdx := rfl
@[simp] theorem raiseMalformed_odd_frameBuf (s : State) : (raiseMalformed .odd s).frameBuf = s.frameBuf := rfl
@[simp] theorem raiseMalformed_odd_frameCnt (s : State) : (raiseMalformed .odd s).frameCnt = s.frameCnt := rfl
@[simp] theorem raiseMalformed_odd_singleIdx (s : State) : (raiseMalformed .odd s).singleIdx = s.singleIdx := rfl
@[simp] theorem raiseMalformed_odd_pendA (s : State) : (raiseMalformed .odd s).pendA = s.pendA := rfl
@[simp] theorem raiseMalformed_odd_pendValid (s : State) : (raiseMalformed .odd s).pendValid = s.pendValid := rfl
@[simp] theorem raiseMalformed_odd_evtIdx (s : State) : (raiseMalformed .odd s).evtIdx = s.evtIdx := rfl
@[simp] theorem raiseMalformed_odd_prev (s : State) : (raiseMalformed .odd s).prev = s.prev := rfl
@[simp] theorem raiseMalformed_odd_prevValid (s : State) : (raiseMalformed .odd s).prevValid = s.prevValid := rfl
@[simp] theorem raiseMalformed_odd_keptIdx (s : State) : (raiseMalformed .odd s).keptIdx = s.keptIdx := rfl
@[simp] theorem raiseMalformed_odd_emitCnt (s : State) : (raiseMalformed .odd s).emitCnt = s.emitCnt := rfl
@[simp] theorem raiseMalformed_odd_diagSig (s : State) : (raiseMalformed .odd s).diagSig = s.diagSig := rfl
@[simp] theorem raiseMalformed_odd_diagPair (s : State) : (raiseMalformed .odd s).diagPair = s.diagPair := rfl
@[simp] theorem raiseMalformed_odd_diagCont (s : State) : (raiseMalformed .odd s).diagCont = s.diagCont := rfl
@[simp] theorem raiseMalformed_odd_errWordcount (s : State) : (raiseMalformed .odd s).errWordcount = s.errWordcount := rfl
@[simp] theorem raiseMalformed_odd_errOdd (s : State) : (raiseMalformed .odd s).errOdd = true := rfl
@[simp] theorem raiseMalformed_odd_cmdErr (s : State) : (raiseMalformed .odd s).cmdErr = s.cmdErr := rfl
@[simp] theorem raiseMalformed_odd_out (s : State) : (raiseMalformed .odd s).out = s.out := rfl
@[simp] theorem raiseMalformed_odd_resp (s : State) : (raiseMalformed .odd s).resp = none := rfl
@[simp] theorem raiseMalformed_odd_input (s : State) : (raiseMalformed .odd s).input = s.input := rfl
@[simp] theorem raiseMalformed_odd_freeCtr (s : State) : (raiseMalformed .odd s).freeCtr = s.freeCtr := rfl

/-! ### `resetRunState` and `powerOnReset` -/

@[simp] theorem resetRunState_build (s : State) : (resetRunState s).build = s.build := rfl
@[simp] theorem resetRunState_cfg (s : State) : (resetRunState s).cfg = s.cfg := rfl
@[simp] theorem resetRunState_phase (s : State) : (resetRunState s).phase = .idle := rfl
@[simp] theorem resetRunState_rawIdx (s : State) : (resetRunState s).rawIdx = 0 := rfl
@[simp] theorem resetRunState_frameBuf (s : State) : (resetRunState s).frameBuf = Config.freeFrame s.freeCtr := rfl
@[simp] theorem resetRunState_frameCnt (s : State) : (resetRunState s).frameCnt = 0 := rfl
@[simp] theorem resetRunState_singleIdx (s : State) : (resetRunState s).singleIdx = 0 := rfl
@[simp] theorem resetRunState_pendA (s : State) : (resetRunState s).pendA = Config.freeSingle s.freeCtr := rfl
@[simp] theorem resetRunState_pendValid (s : State) : (resetRunState s).pendValid = false := rfl
@[simp] theorem resetRunState_evtIdx (s : State) : (resetRunState s).evtIdx = 0 := rfl
@[simp] theorem resetRunState_prev (s : State) : (resetRunState s).prev = Config.freeEvent s.freeCtr := rfl
@[simp] theorem resetRunState_prevValid (s : State) : (resetRunState s).prevValid = false := rfl
@[simp] theorem resetRunState_keptIdx (s : State) : (resetRunState s).keptIdx = 0 := rfl
@[simp] theorem resetRunState_emitCnt (s : State) : (resetRunState s).emitCnt = 0 := rfl
@[simp] theorem resetRunState_diagSig (s : State) : (resetRunState s).diagSig = { cnt := 0, sample := Config.freeSigSample s.freeCtr } := rfl
@[simp] theorem resetRunState_diagPair (s : State) : (resetRunState s).diagPair = { cnt := 0, sample := Config.freePairSample s.freeCtr } := rfl
@[simp] theorem resetRunState_diagCont (s : State) : (resetRunState s).diagCont = { cnt := 0, sample := Config.freeContSample s.freeCtr } := rfl
@[simp] theorem resetRunState_errWordcount (s : State) : (resetRunState s).errWordcount = false := rfl
@[simp] theorem resetRunState_errOdd (s : State) : (resetRunState s).errOdd = false := rfl
@[simp] theorem resetRunState_cmdErr (s : State) : (resetRunState s).cmdErr = false := rfl
@[simp] theorem resetRunState_out (s : State) : (resetRunState s).out = [] := rfl
@[simp] theorem resetRunState_resp (s : State) : (resetRunState s).resp = none := rfl
@[simp] theorem resetRunState_input (s : State) : (resetRunState s).input = s.input := rfl
@[simp] theorem resetRunState_freeCtr (s : State) : (resetRunState s).freeCtr = s.freeCtr + 1 := rfl
@[simp] theorem powerOnReset_build (s : State) : (powerOnReset s).build = s.build := rfl
@[simp] theorem powerOnReset_cfg (s : State) : (powerOnReset s).cfg = cfgReset := rfl
@[simp] theorem powerOnReset_phase (s : State) : (powerOnReset s).phase = .idle := rfl
@[simp] theorem powerOnReset_rawIdx (s : State) : (powerOnReset s).rawIdx = 0 := rfl
@[simp] theorem powerOnReset_frameBuf (s : State) : (powerOnReset s).frameBuf = Config.freeFrame s.freeCtr := rfl
@[simp] theorem powerOnReset_frameCnt (s : State) : (powerOnReset s).frameCnt = 0 := rfl
@[simp] theorem powerOnReset_singleIdx (s : State) : (powerOnReset s).singleIdx = 0 := rfl
@[simp] theorem powerOnReset_pendA (s : State) : (powerOnReset s).pendA = Config.freeSingle s.freeCtr := rfl
@[simp] theorem powerOnReset_pendValid (s : State) : (powerOnReset s).pendValid = false := rfl
@[simp] theorem powerOnReset_evtIdx (s : State) : (powerOnReset s).evtIdx = 0 := rfl
@[simp] theorem powerOnReset_prev (s : State) : (powerOnReset s).prev = Config.freeEvent s.freeCtr := rfl
@[simp] theorem powerOnReset_prevValid (s : State) : (powerOnReset s).prevValid = false := rfl
@[simp] theorem powerOnReset_keptIdx (s : State) : (powerOnReset s).keptIdx = 0 := rfl
@[simp] theorem powerOnReset_emitCnt (s : State) : (powerOnReset s).emitCnt = 0 := rfl
@[simp] theorem powerOnReset_diagSig (s : State) : (powerOnReset s).diagSig = { cnt := 0, sample := Config.freeSigSample s.freeCtr } := rfl
@[simp] theorem powerOnReset_diagPair (s : State) : (powerOnReset s).diagPair = { cnt := 0, sample := Config.freePairSample s.freeCtr } := rfl
@[simp] theorem powerOnReset_diagCont (s : State) : (powerOnReset s).diagCont = { cnt := 0, sample := Config.freeContSample s.freeCtr } := rfl
@[simp] theorem powerOnReset_errWordcount (s : State) : (powerOnReset s).errWordcount = false := rfl
@[simp] theorem powerOnReset_errOdd (s : State) : (powerOnReset s).errOdd = false := rfl
@[simp] theorem powerOnReset_cmdErr (s : State) : (powerOnReset s).cmdErr = false := rfl
@[simp] theorem powerOnReset_out (s : State) : (powerOnReset s).out = [] := rfl
@[simp] theorem powerOnReset_resp (s : State) : (powerOnReset s).resp = none := rfl
@[simp] theorem powerOnReset_input (s : State) : (powerOnReset s).input = s.input := rfl
@[simp] theorem powerOnReset_freeCtr (s : State) : (powerOnReset s).freeCtr = s.freeCtr + 1 := rfl

/-! ### `setPrev` and `issueNext` -/

@[simp] theorem setPrev_build (e : Event) (s : State) : (setPrev e s).build = s.build := rfl
@[simp] theorem setPrev_cfg (e : Event) (s : State) : (setPrev e s).cfg = s.cfg := rfl
@[simp] theorem setPrev_phase (e : Event) (s : State) : (setPrev e s).phase = s.phase := rfl
@[simp] theorem setPrev_rawIdx (e : Event) (s : State) : (setPrev e s).rawIdx = s.rawIdx := rfl
@[simp] theorem setPrev_frameBuf (e : Event) (s : State) : (setPrev e s).frameBuf = s.frameBuf := rfl
@[simp] theorem setPrev_frameCnt (e : Event) (s : State) : (setPrev e s).frameCnt = s.frameCnt := rfl
@[simp] theorem setPrev_singleIdx (e : Event) (s : State) : (setPrev e s).singleIdx = s.singleIdx := rfl
@[simp] theorem setPrev_pendA (e : Event) (s : State) : (setPrev e s).pendA = s.pendA := rfl
@[simp] theorem setPrev_pendValid (e : Event) (s : State) : (setPrev e s).pendValid = s.pendValid := rfl
@[simp] theorem setPrev_evtIdx (e : Event) (s : State) : (setPrev e s).evtIdx = s.evtIdx := rfl
@[simp] theorem setPrev_prev (e : Event) (s : State) : (setPrev e s).prev = e := rfl
@[simp] theorem setPrev_prevValid (e : Event) (s : State) : (setPrev e s).prevValid = true := rfl
@[simp] theorem setPrev_keptIdx (e : Event) (s : State) : (setPrev e s).keptIdx = s.keptIdx := rfl
@[simp] theorem setPrev_emitCnt (e : Event) (s : State) : (setPrev e s).emitCnt = s.emitCnt := rfl
@[simp] theorem setPrev_diagSig (e : Event) (s : State) : (setPrev e s).diagSig = s.diagSig := rfl
@[simp] theorem setPrev_diagPair (e : Event) (s : State) : (setPrev e s).diagPair = s.diagPair := rfl
@[simp] theorem setPrev_diagCont (e : Event) (s : State) : (setPrev e s).diagCont = s.diagCont := rfl
@[simp] theorem setPrev_errWordcount (e : Event) (s : State) : (setPrev e s).errWordcount = s.errWordcount := rfl
@[simp] theorem setPrev_errOdd (e : Event) (s : State) : (setPrev e s).errOdd = s.errOdd := rfl
@[simp] theorem setPrev_cmdErr (e : Event) (s : State) : (setPrev e s).cmdErr = s.cmdErr := rfl
@[simp] theorem setPrev_out (e : Event) (s : State) : (setPrev e s).out = s.out := rfl
@[simp] theorem setPrev_resp (e : Event) (s : State) : (setPrev e s).resp = s.resp := rfl
@[simp] theorem setPrev_input (e : Event) (s : State) : (setPrev e s).input = s.input := rfl
@[simp] theorem setPrev_freeCtr (e : Event) (s : State) : (setPrev e s).freeCtr = s.freeCtr := rfl
@[simp] theorem issueNext_build (item : HostItem) (s : State) : (issueNext item s).build = s.build := rfl
@[simp] theorem issueNext_cfg (item : HostItem) (s : State) : (issueNext item s).cfg = s.cfg := rfl
@[simp] theorem issueNext_phase (item : HostItem) (s : State) : (issueNext item s).phase = s.phase := rfl
@[simp] theorem issueNext_rawIdx (item : HostItem) (s : State) : (issueNext item s).rawIdx = s.rawIdx := rfl
@[simp] theorem issueNext_frameBuf (item : HostItem) (s : State) : (issueNext item s).frameBuf = s.frameBuf := rfl
@[simp] theorem issueNext_frameCnt (item : HostItem) (s : State) : (issueNext item s).frameCnt = s.frameCnt := rfl
@[simp] theorem issueNext_singleIdx (item : HostItem) (s : State) : (issueNext item s).singleIdx = s.singleIdx := rfl
@[simp] theorem issueNext_pendA (item : HostItem) (s : State) : (issueNext item s).pendA = s.pendA := rfl
@[simp] theorem issueNext_pendValid (item : HostItem) (s : State) : (issueNext item s).pendValid = s.pendValid := rfl
@[simp] theorem issueNext_evtIdx (item : HostItem) (s : State) : (issueNext item s).evtIdx = s.evtIdx := rfl
@[simp] theorem issueNext_prev (item : HostItem) (s : State) : (issueNext item s).prev = s.prev := rfl
@[simp] theorem issueNext_prevValid (item : HostItem) (s : State) : (issueNext item s).prevValid = s.prevValid := rfl
@[simp] theorem issueNext_keptIdx (item : HostItem) (s : State) : (issueNext item s).keptIdx = s.keptIdx := rfl
@[simp] theorem issueNext_emitCnt (item : HostItem) (s : State) : (issueNext item s).emitCnt = s.emitCnt := rfl
@[simp] theorem issueNext_diagSig (item : HostItem) (s : State) : (issueNext item s).diagSig = s.diagSig := rfl
@[simp] theorem issueNext_diagPair (item : HostItem) (s : State) : (issueNext item s).diagPair = s.diagPair := rfl
@[simp] theorem issueNext_diagCont (item : HostItem) (s : State) : (issueNext item s).diagCont = s.diagCont := rfl
@[simp] theorem issueNext_errWordcount (item : HostItem) (s : State) : (issueNext item s).errWordcount = s.errWordcount := rfl
@[simp] theorem issueNext_errOdd (item : HostItem) (s : State) : (issueNext item s).errOdd = s.errOdd := rfl
@[simp] theorem issueNext_cmdErr (item : HostItem) (s : State) : (issueNext item s).cmdErr = s.cmdErr := rfl
@[simp] theorem issueNext_out (item : HostItem) (s : State) : (issueNext item s).out = s.out := rfl
@[simp] theorem issueNext_resp (item : HostItem) (s : State) : (issueNext item s).resp = s.resp := rfl
@[simp] theorem issueNext_input (item : HostItem) (s : State) : (issueNext item s).input = item :: s.input := rfl
@[simp] theorem issueNext_freeCtr (item : HostItem) (s : State) : (issueNext item s).freeCtr = s.freeCtr := rfl

/-! ### `record .sig` -/

@[simp] theorem record_sig_build (p : BitVec 36) (s : State) : (record .sig p s).build = s.build := rfl
@[simp] theorem record_sig_cfg (p : BitVec 36) (s : State) : (record .sig p s).cfg = s.cfg := rfl
@[simp] theorem record_sig_phase (p : BitVec 36) (s : State) : (record .sig p s).phase = s.phase := rfl
@[simp] theorem record_sig_rawIdx (p : BitVec 36) (s : State) : (record .sig p s).rawIdx = s.rawIdx := rfl
@[simp] theorem record_sig_frameBuf (p : BitVec 36) (s : State) : (record .sig p s).frameBuf = s.frameBuf := rfl
@[simp] theorem record_sig_frameCnt (p : BitVec 36) (s : State) : (record .sig p s).frameCnt = s.frameCnt := rfl
@[simp] theorem record_sig_singleIdx (p : BitVec 36) (s : State) : (record .sig p s).singleIdx = s.singleIdx := rfl
@[simp] theorem record_sig_pendA (p : BitVec 36) (s : State) : (record .sig p s).pendA = s.pendA := rfl
@[simp] theorem record_sig_pendValid (p : BitVec 36) (s : State) : (record .sig p s).pendValid = s.pendValid := rfl
@[simp] theorem record_sig_evtIdx (p : BitVec 36) (s : State) : (record .sig p s).evtIdx = s.evtIdx := rfl
@[simp] theorem record_sig_prev (p : BitVec 36) (s : State) : (record .sig p s).prev = s.prev := rfl
@[simp] theorem record_sig_prevValid (p : BitVec 36) (s : State) : (record .sig p s).prevValid = s.prevValid := rfl
@[simp] theorem record_sig_keptIdx (p : BitVec 36) (s : State) : (record .sig p s).keptIdx = s.keptIdx := rfl
@[simp] theorem record_sig_emitCnt (p : BitVec 36) (s : State) : (record .sig p s).emitCnt = s.emitCnt := rfl
@[simp] theorem record_sig_diagSig (p : BitVec 36) (s : State) : (record .sig p s).diagSig = recordIn s.diagSig p := rfl
@[simp] theorem record_sig_diagPair (p : BitVec 36) (s : State) : (record .sig p s).diagPair = s.diagPair := rfl
@[simp] theorem record_sig_diagCont (p : BitVec 36) (s : State) : (record .sig p s).diagCont = s.diagCont := rfl
@[simp] theorem record_sig_errWordcount (p : BitVec 36) (s : State) : (record .sig p s).errWordcount = s.errWordcount := rfl
@[simp] theorem record_sig_errOdd (p : BitVec 36) (s : State) : (record .sig p s).errOdd = s.errOdd := rfl
@[simp] theorem record_sig_cmdErr (p : BitVec 36) (s : State) : (record .sig p s).cmdErr = s.cmdErr := rfl
@[simp] theorem record_sig_out (p : BitVec 36) (s : State) : (record .sig p s).out = s.out := rfl
@[simp] theorem record_sig_resp (p : BitVec 36) (s : State) : (record .sig p s).resp = s.resp := rfl
@[simp] theorem record_sig_input (p : BitVec 36) (s : State) : (record .sig p s).input = s.input := rfl
@[simp] theorem record_sig_freeCtr (p : BitVec 36) (s : State) : (record .sig p s).freeCtr = s.freeCtr := rfl

/-! ### `record .pair` -/

@[simp] theorem record_pair_build (p : BitVec 36) (s : State) : (record .pair p s).build = s.build := rfl
@[simp] theorem record_pair_cfg (p : BitVec 36) (s : State) : (record .pair p s).cfg = s.cfg := rfl
@[simp] theorem record_pair_phase (p : BitVec 36) (s : State) : (record .pair p s).phase = s.phase := rfl
@[simp] theorem record_pair_rawIdx (p : BitVec 36) (s : State) : (record .pair p s).rawIdx = s.rawIdx := rfl
@[simp] theorem record_pair_frameBuf (p : BitVec 36) (s : State) : (record .pair p s).frameBuf = s.frameBuf := rfl
@[simp] theorem record_pair_frameCnt (p : BitVec 36) (s : State) : (record .pair p s).frameCnt = s.frameCnt := rfl
@[simp] theorem record_pair_singleIdx (p : BitVec 36) (s : State) : (record .pair p s).singleIdx = s.singleIdx := rfl
@[simp] theorem record_pair_pendA (p : BitVec 36) (s : State) : (record .pair p s).pendA = s.pendA := rfl
@[simp] theorem record_pair_pendValid (p : BitVec 36) (s : State) : (record .pair p s).pendValid = s.pendValid := rfl
@[simp] theorem record_pair_evtIdx (p : BitVec 36) (s : State) : (record .pair p s).evtIdx = s.evtIdx := rfl
@[simp] theorem record_pair_prev (p : BitVec 36) (s : State) : (record .pair p s).prev = s.prev := rfl
@[simp] theorem record_pair_prevValid (p : BitVec 36) (s : State) : (record .pair p s).prevValid = s.prevValid := rfl
@[simp] theorem record_pair_keptIdx (p : BitVec 36) (s : State) : (record .pair p s).keptIdx = s.keptIdx := rfl
@[simp] theorem record_pair_emitCnt (p : BitVec 36) (s : State) : (record .pair p s).emitCnt = s.emitCnt := rfl
@[simp] theorem record_pair_diagSig (p : BitVec 36) (s : State) : (record .pair p s).diagSig = s.diagSig := rfl
@[simp] theorem record_pair_diagPair (p : BitVec 36) (s : State) : (record .pair p s).diagPair = recordIn s.diagPair p := rfl
@[simp] theorem record_pair_diagCont (p : BitVec 36) (s : State) : (record .pair p s).diagCont = s.diagCont := rfl
@[simp] theorem record_pair_errWordcount (p : BitVec 36) (s : State) : (record .pair p s).errWordcount = s.errWordcount := rfl
@[simp] theorem record_pair_errOdd (p : BitVec 36) (s : State) : (record .pair p s).errOdd = s.errOdd := rfl
@[simp] theorem record_pair_cmdErr (p : BitVec 36) (s : State) : (record .pair p s).cmdErr = s.cmdErr := rfl
@[simp] theorem record_pair_out (p : BitVec 36) (s : State) : (record .pair p s).out = s.out := rfl
@[simp] theorem record_pair_resp (p : BitVec 36) (s : State) : (record .pair p s).resp = s.resp := rfl
@[simp] theorem record_pair_input (p : BitVec 36) (s : State) : (record .pair p s).input = s.input := rfl
@[simp] theorem record_pair_freeCtr (p : BitVec 36) (s : State) : (record .pair p s).freeCtr = s.freeCtr := rfl

/-! ### `record .cont` -/

@[simp] theorem record_cont_build (p : BitVec 36) (s : State) : (record .cont p s).build = s.build := rfl
@[simp] theorem record_cont_cfg (p : BitVec 36) (s : State) : (record .cont p s).cfg = s.cfg := rfl
@[simp] theorem record_cont_phase (p : BitVec 36) (s : State) : (record .cont p s).phase = s.phase := rfl
@[simp] theorem record_cont_rawIdx (p : BitVec 36) (s : State) : (record .cont p s).rawIdx = s.rawIdx := rfl
@[simp] theorem record_cont_frameBuf (p : BitVec 36) (s : State) : (record .cont p s).frameBuf = s.frameBuf := rfl
@[simp] theorem record_cont_frameCnt (p : BitVec 36) (s : State) : (record .cont p s).frameCnt = s.frameCnt := rfl
@[simp] theorem record_cont_singleIdx (p : BitVec 36) (s : State) : (record .cont p s).singleIdx = s.singleIdx := rfl
@[simp] theorem record_cont_pendA (p : BitVec 36) (s : State) : (record .cont p s).pendA = s.pendA := rfl
@[simp] theorem record_cont_pendValid (p : BitVec 36) (s : State) : (record .cont p s).pendValid = s.pendValid := rfl
@[simp] theorem record_cont_evtIdx (p : BitVec 36) (s : State) : (record .cont p s).evtIdx = s.evtIdx := rfl
@[simp] theorem record_cont_prev (p : BitVec 36) (s : State) : (record .cont p s).prev = s.prev := rfl
@[simp] theorem record_cont_prevValid (p : BitVec 36) (s : State) : (record .cont p s).prevValid = s.prevValid := rfl
@[simp] theorem record_cont_keptIdx (p : BitVec 36) (s : State) : (record .cont p s).keptIdx = s.keptIdx := rfl
@[simp] theorem record_cont_emitCnt (p : BitVec 36) (s : State) : (record .cont p s).emitCnt = s.emitCnt := rfl
@[simp] theorem record_cont_diagSig (p : BitVec 36) (s : State) : (record .cont p s).diagSig = s.diagSig := rfl
@[simp] theorem record_cont_diagPair (p : BitVec 36) (s : State) : (record .cont p s).diagPair = s.diagPair := rfl
@[simp] theorem record_cont_diagCont (p : BitVec 36) (s : State) : (record .cont p s).diagCont = recordIn s.diagCont p := rfl
@[simp] theorem record_cont_errWordcount (p : BitVec 36) (s : State) : (record .cont p s).errWordcount = s.errWordcount := rfl
@[simp] theorem record_cont_errOdd (p : BitVec 36) (s : State) : (record .cont p s).errOdd = s.errOdd := rfl
@[simp] theorem record_cont_cmdErr (p : BitVec 36) (s : State) : (record .cont p s).cmdErr = s.cmdErr := rfl
@[simp] theorem record_cont_out (p : BitVec 36) (s : State) : (record .cont p s).out = s.out := rfl
@[simp] theorem record_cont_resp (p : BitVec 36) (s : State) : (record .cont p s).resp = s.resp := rfl
@[simp] theorem record_cont_input (p : BitVec 36) (s : State) : (record .cont p s).input = s.input := rfl
@[simp] theorem record_cont_freeCtr (p : BitVec 36) (s : State) : (record .cont p s).freeCtr = s.freeCtr := rfl

end Sys2Proof.Machine
end

