-- ==== Sys2Proof/Laws/Ops.lean ====
section
/-!
SUPPORT. Laws/Ops.lean: each shared operation in closed form, and one lemma that says everything the push of a word, a meaning and
a step can do.
-/
namespace Sys2Proof.Machine

/-! ### Closed forms -/

@[simp] theorem recordList_nil (d : Diag) : recordList d [] = d := rfl

@[simp] theorem recordList_cons (d : Diag) (p : Nat) (ps : List Nat) :
    recordList d (p :: ps) = recordList (recordIn d (BitVec.ofNat 36 p)) ps := rfl

/-- The count after a list of records. -/
theorem recordList_cnt (d : Diag) (ps : List Nat) : (recordList d ps).cnt = d.cnt + BitVec.ofNat 36 ps.length := by
  induction ps generalizing d with
  | nil => simp
  | cons p ps ih =>
    rw [recordList_cons, ih]
    simp [recordIn, BitVec.ofNat_add]
    rw [BitVec.add_assoc, BitVec.add_comm 1#36]

theorem recordAll_sig_eq (ps : List Nat) (s : State) :
    recordAll .sig ps s = { s with diagSig := recordList s.diagSig ps } := by
  induction ps generalizing s with
  | nil => rfl
  | cons p ps ih => exact ih (record .sig (BitVec.ofNat 36 p) s)

theorem recordAll_pair_eq (ps : List Nat) (s : State) :
    recordAll .pair ps s = { s with diagPair := recordList s.diagPair ps } := by
  induction ps generalizing s with
  | nil => rfl
  | cons p ps ih => exact ih (record .pair (BitVec.ofNat 36 p) s)

theorem recordAll_cont_eq (ps : List Nat) (s : State) :
    recordAll .cont ps s = { s with diagCont := recordList s.diagCont ps } := by
  induction ps generalizing s with
  | nil => rfl
  | cons p ps ih => exact ih (record .cont (BitVec.ofNat 36 p) s)

theorem recordAll_diag (c : Check) (ps : List Nat) (s : State) :
    (recordAll c ps s).diag c = recordList (s.diag c) ps := by
  cases c with
  | sig => rw [recordAll_sig_eq]; rfl
  | pair => rw [recordAll_pair_eq]; rfl
  | cont => rw [recordAll_cont_eq]; rfl

/-- DIAG[PAIR] after the Event `e`. -/
def pairDiag (e : Event) (s : State) : Diag :=
  if pairBad e then recordIn s.diagPair (e.position.setWidth 36) else s.diagPair

/-- DIAG[CONT] after the Event `e`. -/
def contDiag (e : Event) (s : State) : Diag :=
  if s.prevValid && !contOk s.build.holdMarkerCmp s.prev e then recordIn s.diagCont (e.position.setWidth 36)
  else s.diagCont

/-- The Event `e` leaves the block. -/
def emits (e : Event) (s : State) : Bool := keep s.cfg e && inPost s.cfg s.keptIdx.toNat

theorem checkPair_eq (e : Event) (s : State) : checkPair e s = { s with diagPair := pairDiag e s } := by
  unfold checkPair pairDiag
  split <;> rfl

theorem checkCont_eq (e : Event) (s : State) : checkCont e s = { s with diagCont := contDiag e s } := by
  unfold checkCont contDiag
  split <;> rfl

theorem selectEvent_eq (e : Event) (s : State) :
    selectEvent e s = { s with
      keptIdx := if keep s.cfg e then s.keptIdx + 1 else s.keptIdx
      out := if emits e s then s.out ++ [e] else s.out
      emitCnt := if emits e s then s.emitCnt + 1 else s.emitCnt } := by
  unfold selectEvent emits
  cases keep s.cfg e <;> cases inPost s.cfg s.keptIdx.toNat <;> rfl

/-- Everything EVENT_DONE does (44_stream_control.md R249). -/
theorem eventDone_eq (e : Event) (s : State) :
    eventDone e s = { s with
      diagPair := pairDiag e s
      diagCont := contDiag e s
      prev := e
      prevValid := true
      keptIdx := if keep s.cfg e then s.keptIdx + 1 else s.keptIdx
      out := if emits e s then s.out ++ [e] else s.out
      emitCnt := if emits e s then s.emitCnt + 1 else s.emitCnt } := by
  unfold eventDone
  rw [checkPair_eq, checkCont_eq, selectEvent_eq]
  rfl

/-- DIAG[SIG] after the Single `x`. -/
def sigDiag (x : Single) (s : State) : Diag := recordList s.diagSig (sigchkSingle x (5 * s.singleIdx.toNat))

theorem checkSingle_eq (x : Single) (s : State) :
    checkSingle x s = { s with diagSig := sigDiag x s, singleIdx := s.singleIdx + 1 } := by
  unfold checkSingle
  rw [recordAll_sig_eq]
  rfl

/-! ### The push of a word, case by case -/

/-- The frame buffer after the word `w`. -/
def bufAfter (w : Word) (s : State) : Frame := s.frameBuf.setIfInBounds s.frameCnt.toNat w

/-- The Single the word `w` completes. -/
def singleAfter (w : Word) (s : State) : Single := decode5 s.build.layout (bufAfter w s)

/-- The Event the word `w` completes. -/
def eventAfter (w : Word) (s : State) : Event :=
  { a := s.pendA, b := singleAfter w s, position := s.evtIdx.setWidth 32, status := 0 }

/-- A word outside the window. -/
def afterOutside (s : State) : State := { s with phase := .run, rawIdx := s.rawIdx + 1, resp := none }

/-- A word that does not complete its frame. -/
def afterStored (w : Word) (s : State) : State :=
  { s with phase := .run, rawIdx := s.rawIdx + 1, resp := none, frameBuf := bufAfter w s, frameCnt := s.frameCnt + 1 }

/-- A word that completes side_a. -/
def afterSideA (w : Word) (s : State) : State :=
  { s with
    phase := .run, rawIdx := s.rawIdx + 1, resp := none, frameBuf := bufAfter w s, frameCnt := 0
    singleIdx := s.singleIdx + 1, pendA := singleAfter w s, pendValid := true, diagSig := sigDiag (singleAfter w s) s }

/-- A word that completes an Event. -/
def afterEvent (w : Word) (s : State) : State :=
  { s with
    phase := .run, rawIdx := s.rawIdx + 1, resp := none, frameBuf := bufAfter w s, frameCnt := 0
    singleIdx := s.singleIdx + 1, pendValid := false, evtIdx := s.evtIdx + 1, diagSig := sigDiag (singleAfter w s) s
    diagPair := pairDiag (eventAfter w s) s, diagCont := contDiag (eventAfter w s) s
    prev := eventAfter w s, prevValid := true
    keptIdx := if keep s.cfg (eventAfter w s) then s.keptIdx + 1 else s.keptIdx
    out := if emits (eventAfter w s) s then s.out ++ [eventAfter w s] else s.out
    emitCnt := if emits (eventAfter w s) s then s.emitCnt + 1 else s.emitCnt }

theorem pushWord_done {w : Word} {s : State} (h : phaseDone s.phase = true) :
    pushWord w s = .next (illegal false s) := by simp [pushWord, h]

theorem pushWord_rawFull {w : Word} {s : State} (h : phaseDone s.phase = false) (hr : s.rawIdx.toNat = nRawMax) :
    pushWord w s = .refused .rawCapacity := by simp [pushWord, h, hr]

theorem pushWord_outside {w : Word} {s : State} (h : phaseDone s.phase = false) (hr : s.rawIdx.toNat ≠ nRawMax)
    (hw : inPre s.cfg s.rawIdx.toNat = false) : pushWord w s = .next (afterOutside s) := by
  simp [pushWord, h, hr, hw, afterOutside]

theorem pushWord_stored {w : Word} {s : State} (h : phaseDone s.phase = false) (hr : s.rawIdx.toNat ≠ nRawMax)
    (hw : inPre s.cfg s.rawIdx.toNat = true) (hc : s.frameCnt.toNat < 4) :
    pushWord w s = .next (afterStored w s) := by
  simp [pushWord, h, hr, hw, acceptWord, hc, afterStored, bufAfter]

theorem pushWord_sideA {w : Word} {s : State} (h : phaseDone s.phase = false) (hr : s.rawIdx.toNat ≠ nRawMax)
    (hw : inPre s.cfg s.rawIdx.toNat = true) (hc : ¬ s.frameCnt.toNat < 4) (hp : s.pendValid = false) :
    pushWord w s = .next (afterSideA w s) := by
  simp only [pushWord, h, hr, hw, acceptWord, hc, singleDone, checkSingle_eq, hp, if_true, if_false,
    Bool.false_eq_true]
  rfl

theorem pushWord_evtFull {w : Word} {s : State} (h : phaseDone s.phase = false) (hr : s.rawIdx.toNat ≠ nRawMax)
    (hw : inPre s.cfg s.rawIdx.toNat = true) (hc : ¬ s.frameCnt.toNat < 4) (hp : s.pendValid = true)
    (he : s.evtIdx.toNat = nEvtMax) : pushWord w s = .refused .eventCapacity := by
  simp [pushWord, h, hr, hw, acceptWord, hc, singleDone, checkSingle_eq, hp, he]

theorem pushWord_event {w : Word} {s : State} (h : phaseDone s.phase = false) (hr : s.rawIdx.toNat ≠ nRawMax)
    (hw : inPre s.cfg s.rawIdx.toNat = true) (hc : ¬ s.frameCnt.toNat < 4) (hp : s.pendValid = true)
    (he : s.evtIdx.toNat ≠ nEvtMax) : pushWord w s = .next (afterEvent w s) := by
  simp only [pushWord, h, hr, hw, acceptWord, hc, singleDone, checkSingle_eq, hp, he, if_false, if_true,
    Bool.false_eq_true, reduceCtorEq, eventDone_eq]
  rfl

/-- Everything the push of a word can do (44_stream_control.md R246 to R249, R263). -/
theorem pushWord_cases (w : Word) (s : State) :
    (phaseDone s.phase = true ∧ pushWord w s = .next (illegal false s)) ∨
    (phaseDone s.phase = false ∧ s.rawIdx.toNat = nRawMax ∧ pushWord w s = .refused .rawCapacity) ∨
    (phaseDone s.phase = false ∧ s.rawIdx.toNat ≠ nRawMax ∧
      ((inPre s.cfg s.rawIdx.toNat = false ∧ pushWord w s = .next (afterOutside s)) ∨
       (inPre s.cfg s.rawIdx.toNat = true ∧
        ((s.frameCnt.toNat < 4 ∧ pushWord w s = .next (afterStored w s)) ∨
         (¬ s.frameCnt.toNat < 4 ∧
          ((s.pendValid = false ∧ pushWord w s = .next (afterSideA w s)) ∨
           (s.pendValid = true ∧ s.evtIdx.toNat = nEvtMax ∧ pushWord w s = .refused .eventCapacity) ∨
           (s.pendValid = true ∧ s.evtIdx.toNat ≠ nEvtMax ∧ pushWord w s = .next (afterEvent w s)))))))) := by
  by_cases h : phaseDone s.phase = true
  · exact .inl ⟨h, pushWord_done h⟩
  have h : phaseDone s.phase = false := by simpa using h
  refine .inr ?_
  by_cases hr : s.rawIdx.toNat = nRawMax
  · exact .inl ⟨h, hr, pushWord_rawFull h hr⟩
  refine .inr ⟨h, hr, ?_⟩
  by_cases hw : inPre s.cfg s.rawIdx.toNat = true
  · refine .inr ⟨hw, ?_⟩
    by_cases hc : s.frameCnt.toNat < 4
    · exact .inl ⟨hc, pushWord_stored h hr hw hc⟩
    refine .inr ⟨hc, ?_⟩
    by_cases hp : s.pendValid = true
    · by_cases he : s.evtIdx.toNat = nEvtMax
      · exact .inr (.inl ⟨hp, he, pushWord_evtFull h hr hw hc hp he⟩)
      · exact .inr (.inr ⟨hp, he, pushWord_event h hr hw hc hp he⟩)
    · have hp : s.pendValid = false := by simpa using hp
      exact .inl ⟨hp, pushWord_sideA h hr hw hc hp⟩
  · have hw : inPre s.cfg s.rawIdx.toNat = false := by simpa using hw
    exact .inl ⟨hw, pushWord_outside h hr hw⟩

/-- Where the push of a word goes on, one of five states follows. -/
theorem pushWord_next {w : Word} {s t : State} (h : pushWord w s = .next t) :
    (phaseDone s.phase = true ∧ t = illegal false s) ∨
    (phaseDone s.phase = false ∧ s.rawIdx.toNat ≠ nRawMax ∧
      ((inPre s.cfg s.rawIdx.toNat = false ∧ t = afterOutside s) ∨
       (inPre s.cfg s.rawIdx.toNat = true ∧
        ((s.frameCnt.toNat < 4 ∧ t = afterStored w s) ∨
         (¬ s.frameCnt.toNat < 4 ∧ s.pendValid = false ∧ t = afterSideA w s) ∨
         (¬ s.frameCnt.toNat < 4 ∧ s.pendValid = true ∧ s.evtIdx.toNat ≠ nEvtMax ∧ t = afterEvent w s))))) := by
  have inj : ∀ {u : State}, pushWord w s = .next u → t = u := fun hu => by
    rw [h] at hu; exact Host.Outcome.next.inj hu
  rcases pushWord_cases w s with ⟨hd, e⟩ | ⟨_, _, e⟩ | ⟨hd, hr, ⟨hw, e⟩ | ⟨hw, ⟨hc, e⟩ | ⟨hc, ⟨hp, e⟩ | ⟨_, _, e⟩ | ⟨hp, he, e⟩⟩⟩⟩
  · exact .inl ⟨hd, inj e⟩
  · simp [h] at e
  · exact .inr ⟨hd, hr, .inl ⟨hw, inj e⟩⟩
  · exact .inr ⟨hd, hr, .inr ⟨hw, .inl ⟨hc, inj e⟩⟩⟩
  · exact .inr ⟨hd, hr, .inr ⟨hw, .inr (.inl ⟨hc, hp, inj e⟩)⟩⟩
  · simp [h] at e
  · exact .inr ⟨hd, hr, .inr ⟨hw, .inr (.inr ⟨hc, hp, he, inj e⟩)⟩⟩

/-! ### The meanings and the step -/

/-- PUSH and the frame words are the push of the word they carry. -/
theorem exec_of_pushedWord {i : Instr} {w : Word} (s : State) (h : i.pushedWord = some w) : exec i s = pushWord w s := by
  cases i <;> simp_all [Instr.pushedWord, exec, execPush, execFwHdr, execFwCha, execFwChb, execFwChc, execFwChd,
    execFwDummy, execFwRsv6, execFwRsv7]

/-- Everything WRCFG can do. -/
theorem execWrcfg_cases (sel : BitVec 8) (data : BitVec 40) (s : State) :
    ((s.phase = .run ∨ cfgWrite s.cfg sel data = none) ∧ execWrcfg sel data s = .next (illegal false s)) ∨
    (s.phase ≠ .run ∧ ∃ c, cfgWrite s.cfg sel data = some c ∧
      execWrcfg sel data s = .next { s with cfg := c, resp := none }) := by
  unfold execWrcfg
  by_cases h : s.phase = .run
  · exact .inl ⟨.inl h, by simp [h]⟩
  · cases hc : cfgWrite s.cfg sel data with
    | none => exact .inl ⟨.inr rfl, by simp [h]⟩
    | some c => exact .inr ⟨h, c, rfl, by simp [h]⟩

/-- Everything END can do. -/
theorem execEndRun_cases (sel : BitVec 8) (data : BitVec 40) (s : State) :
    (phaseDone s.phase = true ∧ execEndRun sel data s = .next (illegal false s)) ∨
    (phaseDone s.phase = false ∧
      ((s.frameCnt ≠ 0 ∧ execEndRun sel data s = .next (raiseMalformed .wordcount s)) ∨
       (s.frameCnt = 0 ∧ s.pendValid = true ∧ execEndRun sel data s = .next (raiseMalformed .odd s)) ∨
       (s.frameCnt = 0 ∧ s.pendValid = false ∧
         execEndRun sel data s = .next { s with phase := .doneOk, resp := none }))) := by
  unfold execEndRun
  by_cases h : phaseDone s.phase = true
  · exact .inl ⟨h, by simp [h]⟩
  · have h : phaseDone s.phase = false := by simpa using h
    refine .inr ⟨h, ?_⟩
    by_cases hc : s.frameCnt = 0
    · by_cases hp : s.pendValid = true
      · exact .inr (.inl ⟨hc, hp, by simp [h, hc, hp]⟩)
      · have hp : s.pendValid = false := by simpa using hp
        exact .inr (.inr ⟨hc, hp, by simp [h, hc, hp]⟩)
    · exact .inl ⟨hc, by rw [if_neg (by simp [h]), if_pos hc]⟩

/-- A reading command answers with a response or is illegal. -/
theorem exec_of_reads {i : Instr} {sel : BitVec 8} {data : BitVec 40} (s : State)
     (h : i = .rdcfg sel data ∨ i = .rddiag sel data ∨ i = .rdstat sel data) :
    exec i s = .next (illegal true s) ∨ ∃ r, exec i s = .next (respond (some r) s) := by
  rcases h with rfl | rfl | rfl
  · simp only [exec, execRdcfg]; split
    · exact .inl rfl
    · exact .inr ⟨_, rfl⟩
  · simp only [exec, execRddiag]; split
    · exact .inl rfl
    · exact .inr ⟨_, rfl⟩
  · simp only [exec, execRdstat]; split
    · exact .inl rfl
    · exact .inr ⟨_, rfl⟩

/-- Everything an instruction that pushes no word can do, where it goes on. -/
theorem exec_next_of_no_word {i : Instr} {s t : State} (hi : i.pushedWord = none) (h : exec i s = .next t) :
    (∃ b, t = illegal b s) ∨ (∃ r, t = respond r s) ∨
    (∃ sel data, i = .resetRun sel data ∧ t = resetRunState s) ∨
    (∃ sel data c, i = .wrcfg sel data ∧ s.phase ≠ .run ∧ cfgWrite s.cfg sel data = some c ∧
      t = { s with cfg := c, resp := none }) ∨
    (phaseDone s.phase = false ∧
      ((s.frameCnt ≠ 0 ∧ t = raiseMalformed .wordcount s) ∨
       (s.frameCnt = 0 ∧ s.pendValid = true ∧ t = raiseMalformed .odd s) ∨
       (s.frameCnt = 0 ∧ s.pendValid = false ∧ t = { s with phase := .doneOk, resp := none }))) := by
  have inj : ∀ {u : State}, exec i s = .next u → t = u := fun hu => by
    rw [h] at hu; exact Host.Outcome.next.inj hu
  cases i with
  | nop sel data => exact .inr (.inl ⟨none, inj rfl⟩)
  | resetRun sel data => exact .inr (.inr (.inl ⟨sel, data, rfl, inj rfl⟩))
  | wrcfg sel data =>
    rcases execWrcfg_cases sel data s with ⟨_, e⟩ | ⟨hr, c, hc, e⟩
    · exact .inl ⟨false, inj e⟩
    · exact .inr (.inr (.inr (.inl ⟨sel, data, c, rfl, hr, hc, inj e⟩)))
  | rdcfg sel data =>
    rcases exec_of_reads s (.inl rfl) with e | ⟨r, e⟩
    · exact .inl ⟨true, inj e⟩
    · exact .inr (.inl ⟨some r, inj e⟩)
  | endRun sel data =>
    rcases execEndRun_cases sel data s with ⟨_, e⟩ | ⟨hd, ⟨hc, e⟩ | ⟨hc, hp, e⟩ | ⟨hc, hp, e⟩⟩
    · exact .inl ⟨false, inj e⟩
    · exact .inr (.inr (.inr (.inr ⟨hd, .inl ⟨hc, inj e⟩⟩)))
    · exact .inr (.inr (.inr (.inr ⟨hd, .inr (.inl ⟨hc, hp, inj e⟩)⟩)))
    · exact .inr (.inr (.inr (.inr ⟨hd, .inr (.inr ⟨hc, hp, inj e⟩)⟩)))
  | rddiag sel data =>
    rcases exec_of_reads s (.inr (.inl rfl)) with e | ⟨r, e⟩
    · exact .inl ⟨true, inj e⟩
    · exact .inr (.inl ⟨some r, inj e⟩)
  | rdstat sel data =>
    rcases exec_of_reads s (.inr (.inr rfl)) with e | ⟨r, e⟩
    · exact .inl ⟨true, inj e⟩
    · exact .inr (.inl ⟨some r, inj e⟩)
  | reservedOpc opc sel rsv data => exact .inl ⟨opcReads opc, inj rfl⟩
  | push | fwHdr | fwCha | fwChb | fwChc | fwChd | fwDummy | fwRsv6 | fwRsv7 => simp [Instr.pushedWord] at hi

/-- Everything a step can do, where it goes on. -/
theorem step_next {s t : State} (h : step s = .next t) :
    (s.input = [] ∧ t = s) ∨
    (∃ rest, s.input = .powerOnReset :: rest ∧ t = powerOnReset { s with input := rest }) ∨
    (∃ p rest err b, s.input = .word p :: rest ∧ decode p = .error err ∧ t = illegal b { s with input := rest }) ∨
    (∃ p rest i, s.input = .word p :: rest ∧ decode p = .ok i ∧ exec i { s with input := rest } = .next t) := by
  unfold step takeItem at h
  cases hin : s.input with
  | nil =>
    simp only [hin] at h
    exact .inl ⟨rfl, (Host.Outcome.next.inj h).symm⟩
  | cons item rest =>
    simp only [hin] at h
    cases item with
    | powerOnReset => exact .inr (.inl ⟨rest, rfl, (Host.Outcome.next.inj h).symm⟩)
    | word p =>
      cases hd : decode p with
      | error err =>
        simp only [hd] at h
        cases err with
        | rsvNonzero opc =>
          exact .inr (.inr (.inl ⟨p, rest, _, opcReads opc, rfl, hd, (Host.Outcome.next.inj h).symm⟩))
      | ok i =>
        simp only [hd] at h
        exact .inr (.inr (.inr ⟨p, rest, i, rfl, hd, h⟩))

/-- A step on a word that decodes. -/
theorem step_word_ok {s : State} {p : PortWord} {rest : List HostItem} {i : Instr} (h : s.input = .word p :: rest)
    (hd : decode p = .ok i) : step s = exec i { s with input := rest } := by
  simp [step, takeItem, h, hd]

/-- A step on a word the decoder rejects. -/
theorem step_word_error {s : State} {p : PortWord} {rest : List HostItem} {err : DecodeError}
    (h : s.input = .word p :: rest) (hd : decode p = .error err) :
    step s = execRejected err { s with input := rest } := by
  simp [step, takeItem, h, hd]

end Sys2Proof.Machine
end

