-- ==== Sys2Proof/Laws/PerInstr.lean ====
section
/-!
SUPPORT. Laws/PerInstr.lean: the family TableRow: the word of a well-formed instruction stands in its own row of
spec/opcode_table.json (30_encoding.md R85, R89, R90).
-/
namespace Sys2Proof.Laws.TableRow

/-- What selects a row of the table: an opcode with RSV 0, any opcode from 0x08 up, or a check value. -/
inductive Row where
  | opcode (n : Nat)
  | reserved
  | check (n : Nat)
  deriving DecidableEq, Repr

/-- The row of each constructor, from the columns match and mask. -/
def rowOf : Instr → Row
  | .nop _ _ => .opcode 0x00
  | .resetRun _ _ => .opcode 0x01
  | .wrcfg _ _ => .opcode 0x02
  | .rdcfg _ _ => .opcode 0x03
  | .push _ _ => .opcode 0x04
  | .endRun _ _ => .opcode 0x05
  | .rddiag _ _ => .opcode 0x06
  | .rdstat _ _ => .opcode 0x07
  | .reservedOpc _ _ _ _ => .reserved
  | .fwHdr _ => .check 4
  | .fwCha _ => .check 0
  | .fwChb _ => .check 1
  | .fwChc _ => .check 2
  | .fwChd _ => .check 3
  | .fwDummy _ => .check 5
  | .fwRsv6 _ => .check 6
  | .fwRsv7 _ => .check 7

/-- A port word stands in a row. -/
def InRow : PortWord → Row → Prop
  | .command w, .opcode n => w.toNat / 2 ^ 56 = n ∧ w.toNat / 2 ^ 40 % 256 = 0
  | .command w, .reserved => 8 ≤ w.toNat / 2 ^ 56
  | .frame w, .check n => w.toNat / 2 ^ 13 = n
  | .command _, .check _ | .frame _, .opcode _ | .frame _, .reserved => False

/-- The word of a well-formed instruction stands in the instruction's row. -/
def Statement (i : Instr) : Prop := i.WellFormed → InRow (encode i) (rowOf i)

/-- A command below 0x08. -/
theorem command_inRow (n : BitVec 8) (sel : BitVec 8) (data : BitVec 40) :
    InRow (.command (commandWord n sel 0 data)) (.opcode n.toNat) := by
  have := data.isLt; have := sel.isLt
  have : (0 : BitVec 8).toNat = 0 := rfl
  simp only [InRow, toNat_commandWord]
  omega

/-- A frame word. -/
theorem frame_inRow (n : BitVec 3) (p : BitVec 13) : InRow (.frame (frameWord n p)) (.check n.toNat) := by
  have := p.isLt
  simp only [InRow, toNat_frameWord]
  omega

theorem nop (sel : BitVec 8) (data : BitVec 40) : Statement (.nop sel data) := fun _ => command_inRow 0 sel data
theorem resetRun (sel : BitVec 8) (data : BitVec 40) : Statement (.resetRun sel data) := fun _ => command_inRow 1 sel data
theorem wrcfg (sel : BitVec 8) (data : BitVec 40) : Statement (.wrcfg sel data) := fun _ => command_inRow 2 sel data
theorem rdcfg (sel : BitVec 8) (data : BitVec 40) : Statement (.rdcfg sel data) := fun _ => command_inRow 3 sel data
theorem push (sel : BitVec 8) (data : BitVec 40) : Statement (.push sel data) := fun _ => command_inRow 4 sel data
theorem endRun (sel : BitVec 8) (data : BitVec 40) : Statement (.endRun sel data) := fun _ => command_inRow 5 sel data
theorem rddiag (sel : BitVec 8) (data : BitVec 40) : Statement (.rddiag sel data) := fun _ => command_inRow 6 sel data
theorem rdstat (sel : BitVec 8) (data : BitVec 40) : Statement (.rdstat sel data) := fun _ => command_inRow 7 sel data

theorem reservedOpc (opc sel rsv : BitVec 8) (data : BitVec 40) : Statement (.reservedOpc opc sel rsv data) := by
  intro h
  have h8 : 8 ≤ opc.toNat := of_decide_eq_true h
  show 8 ≤ (commandWord opc sel rsv data).toNat / 2 ^ 56
  rw [toNat_commandWord]
  omega

theorem fwHdr (p : BitVec 13) : Statement (.fwHdr p) := fun _ => frame_inRow 4 p
theorem fwCha (p : BitVec 13) : Statement (.fwCha p) := fun _ => frame_inRow 0 p
theorem fwChb (p : BitVec 13) : Statement (.fwChb p) := fun _ => frame_inRow 1 p
theorem fwChc (p : BitVec 13) : Statement (.fwChc p) := fun _ => frame_inRow 2 p
theorem fwChd (p : BitVec 13) : Statement (.fwChd p) := fun _ => frame_inRow 3 p
theorem fwDummy (p : BitVec 13) : Statement (.fwDummy p) := fun _ => frame_inRow 5 p
theorem fwRsv6 (p : BitVec 13) : Statement (.fwRsv6 p) := fun _ => frame_inRow 6 p
theorem fwRsv7 (p : BitVec 13) : Statement (.fwRsv7 p) := fun _ => frame_inRow 7 p

end Sys2Proof.Laws.TableRow
end

