-- ==== Sys2Proof/Tests/Slice0.lean ====
section
/-!
SUPPORT. Tests/Slice0.lean: the spec's own vectors (95_test_vectors.md), ill-formed terms the checks refuse, and for every
obligation with hypotheses a concrete case that meets them.
-/
namespace Sys2Proof.Tests
open Sys2Proof.Machine

/-! ### Small states and helpers -/

/-- The state after an outcome; reset where there is none. -/
def after : Outcome → State
  | .next s => s
  | .fault _ | .refused _ => State.reset

/-- The outcome is a next state. -/
def goesOn : Outcome → Bool
  | .next _ => true
  | .fault _ | .refused _ => false

/-- Side a of program P1. -/
def frameA : Frame := #v[0x93C5, 0x1064, 0x20C8, 0x412C, 0x7190]

/-- Side b of program P1. -/
def frameB : Frame := #v[0x80C6, 0x000A, 0x2014, 0x401E, 0x6028]

/-- Program P1 before its fifth word. -/
def beforeSideA : State :=
  { State.reset with phase := .run, rawIdx := 4, frameCnt := 4, frameBuf := #v[0x93C5, 0x1064, 0x20C8, 0x412C, 0] }

/-- Program P1 before its tenth word. -/
def beforeEvent : State :=
  { State.reset with
    phase := .run, rawIdx := 9, frameCnt := 4, frameBuf := #v[0x80C6, 0x000A, 0x2014, 0x401E, 0x7190], singleIdx := 1
    pendA := decode5 layoutDefault frameA, pendValid := true }

/-- Program P3 before END. -/
def midFrame : State :=
  { State.reset with
    phase := .run, rawIdx := 7, frameCnt := 2, frameBuf := #v[0x80C6, 0x000A, 0x20C8, 0x412C, 0x7190], singleIdx := 1
    pendA := decode5 layoutDefault frameA, pendValid := true }

/-- Program P3 after END. -/
def ended : State := { midFrame with phase := .doneErr, errWordcount := true }

/-- A Single of the vectors: marker, flag, hold[0], and every other field 0. -/
def mk (m f h : Nat) : Single := singleOfNats m f 0 #v[h, 0, 0, 0] #v[4, 0, 1, 2, 3] #v[0, 0, 0, 0]

/-- An Event of two Singles. -/
def ev (a b : Single) (k : Nat) : Event := { a := a, b := b, position := BitVec.ofNat 32 k, status := 0 }

/-! ### WellFormed: the term each check refuses -/

theorem test_illFormed_reservedOpc : (Instr.reservedOpc 0x07 0 0 0).wellFormed = false := by decide
theorem test_wellFormed_reservedOpc : (Instr.reservedOpc 0x08 0 0 0).WellFormed ∧ (Instr.reservedOpc 0xFF 1 2 3).WellFormed := by
  decide
theorem test_illFormed_layout : layoutOk { layoutDefault with offFlag := 5 } = false := by decide
theorem test_illFormed_layout_check_bits : layoutOk { layoutDefault with offDelayed := 13 } = false := by decide
theorem test_layout_default : layoutOk layoutDefault = true ∧ fieldmapCheck (fieldMap layoutDefault) = true := by decide
theorem test_illFormed_build : ∀ h, goesOn (buildBlock { layout := { layoutDefault with offFlag := 5 }, holdMarkerCmp := h }) = false := by
  intro h; cases h <;> rfl

/-! ### Decoding: words of 95_test_vectors.md 2.7 and of 30_encoding.md R85, bit by bit -/

theorem test_decode_nop : decode (.command 0x0000000000000000) = .ok (.nop 0 0) := by decide
theorem test_decode_resetRun : decode (.command 0x0100000000000000) = .ok (.resetRun 0 0) := by decide
theorem test_decode_wrcfg : decode (.command 0x02080001FFFFFFFB) = .ok (.wrcfg 0x08 0x01FFFFFFFB) := by decide
theorem test_decode_rdcfg : decode (.command 0x033E000000000000) = .ok (.rdcfg 0x3E 0) := by decide
theorem test_decode_push : decode (.command 0x04000000000093C5) = .ok (.push 0 0x93C5) := by decide
theorem test_decode_push_ignored : decode (.command 0x04AB00FFFFFF93C5) = .ok (.push 0xAB 0xFFFFFF93C5) := by decide
theorem test_decode_end : decode (.command 0x0500000000000000) = .ok (.endRun 0 0) := by decide
theorem test_decode_rddiag : decode (.command 0x0644000000000000) = .ok (.rddiag 0x44 0) := by decide
theorem test_decode_rdstat : decode (.command 0x0705000000000000) = .ok (.rdstat 0x05 0) := by decide
theorem test_decode_reserved_low : decode (.command 0x0800000000000000) = .ok (.reservedOpc 0x08 0 0 0) := by decide
theorem test_decode_reserved_high : decode (.command 0xFF01020000000003) = .ok (.reservedOpc 0xFF 0x01 0x02 3) := by decide
theorem test_decode_rsv : decode (.command 0x0000010000000000) = .error (.rsvNonzero 0) ∧
    decode (.command 0x0400010000001234) = .error (.rsvNonzero 4) ∧
    decode (.command 0x0700800000000000) = .error (.rsvNonzero 7) := by decide
theorem test_decode_frame_words :
    decode (.frame 0b1001001111000101) = .ok (.fwHdr 0b1001111000101) ∧
    decode (.frame 0b0001000001100100) = .ok (.fwCha 0b1000001100100) ∧
    decode (.frame 0b0010000011001000) = .ok (.fwChb 0b0000011001000) ∧
    decode (.frame 0b0100000100101100) = .ok (.fwChc 0b0000100101100) ∧
    decode (.frame 0b0111000110010000) = .ok (.fwChd 0b1000110010000) := by decide
theorem test_decode_frame_words_other :
    decode (.frame 0b1010000000000000) = .ok (.fwDummy 0) ∧
    decode (.frame 0b1100001111101000) = .ok (.fwRsv6 0b0001111101000) ∧
    decode (.frame 0b1111111111111111) = .ok (.fwRsv7 0b1111111111111) := by decide
theorem test_table_word : decodeTableWord 64 0x0500000000000000 = some (.endRun 0 0) ∧
    decodeTableWord 16 0x8000 = some (.fwHdr 0) ∧ decodeTableWord 64 0x0000010000000000 = none := by decide
theorem test_fetch_word : (after (step (State.reset.withFetchWord 64 0x0707000000000000))).cmdErr = true ∧
    (after (step (State.reset.withFetchWord 16 0x8000))).rawIdx = 1 := by decide

/-! ### The assembler: lines and words of 95_test_vectors.md 2.7 -/

/-- The command words of a line of text. -/
def wordsOfLine (t : String) : Option (List PortWord) := (assembleText layoutDefault t.toList).map fun is => is.map encode

theorem test_asm_wrcfg : wordsOfLine "WRCFG CFG_LO_A, -5" = some [.command 0x02080001FFFFFFFB] := by decide
theorem test_asm_register_name : wordsOfLine "WRCFG CFG_LO[SUM], 4000" = some [.command 0x020C000100000FA0] ∧
    wordsOfLine "WRCFG CFG_LO_SUM, 4000" = some [.command 0x020C000100000FA0] := by decide
theorem test_asm_crop_negative : wordsOfLine "WRCFG CFG_PRE_BEGIN, 1" = some [.command 0x0202000100000001] ∧
    wordsOfLine "WRCFG CFG_PRE_BEGIN, -1" = none ∧ wordsOfLine "WRCFG CFG_POST_END, -1" = none := by decide
theorem test_asm_policy : wordsOfLine "WRCFG CFG_DELAYED, REQUIRE_TRUE" = some [.command 0x0200000000000001] := by decide
theorem test_asm_cfgoff : wordsOfLine "CFGOFF CFG_POST_END" = some [.command 0x0205000000000000] := by decide
theorem test_asm_push : wordsOfLine "PUSH 0x93C5 ; side a" = some [.command 0x04000000000093C5] := by decide
theorem test_asm_rddiag : wordsOfLine "RDDIAG PAIR, 4" = some [.command 0x0644000000000000] ∧
    wordsOfLine "RDDIAG CONT, COUNT" = some [.command 0x0687000000000000] := by decide
theorem test_asm_rdstat : wordsOfLine "RDSTAT EMITTED" = some [.command 0x0705000000000000] := by decide
theorem test_asm_single : wordsOfLine "SINGLE m=5 f=15 dl=1 h=1001 c=100,200,300,400" =
    some [.command 0x04000000000093C5, .command 0x0400000000001064, .command 0x04000000000020C8,
      .command 0x040000000000412C, .command 0x0400000000007190] := by decide

/-! ### One step of each instruction -/

theorem test_nop : (after (exec (.nop 0xFF 1) midFrame)).frameCnt = 2 ∧ (after (exec (.nop 0 0) ended)).cmdErr = false := by decide
theorem test_resetRun : (after (exec (.resetRun 0 0) { ended with cmdErr := true })).cmdErr = false ∧
    statusWord (after (exec (.resetRun 0 0) ended)) = 0 := by decide
theorem test_wrcfg_policy_low_bits : (after (exec (.wrcfg 0x00 0xFE) { State.reset with cfg := { cfgReset with delayed := .requireTrue } })).cfg.delayed = .any ∧
    (after (exec (.wrcfg 0x00 0x07) State.reset)).cmdErr = true := by decide
theorem test_wrcfg_in_run : (after (exec (.wrcfg 0x00 0) midFrame)).cfg.delayed = .any ∧
    (after (exec (.wrcfg 0x00 0) midFrame)).cmdErr = true := by decide
theorem test_rdcfg_layoutId : (after (exec (.rdcfg 0x3E 0) State.reset)).resp = some 0x00000C0C60 ∧
    (after (exec (.rdcfg 0x3F 0) State.reset)).resp = some 0x0150495054 := by decide
theorem test_rdcfg_reserved : (after (exec (.rdcfg 0x06 0) State.reset)).resp = some 0 ∧
    (after (exec (.rdcfg 0x06 0) State.reset)).cmdErr = true := by decide
theorem test_push_sideA : (after (exec (.push 0 0x7190) beforeSideA)).pendA.sum = 1000 ∧
    (after (exec (.push 0 0x7190) beforeSideA)).pendValid = true := by decide
theorem test_push_event : (after (exec (.push 0 0x6028) beforeEvent)).out.map (fun e => (e.a.sum, e.b.sum, e.position)) =
    [(1000, 100, 0)] ∧ (after (exec (.push 0 0x6028) beforeEvent)).diagSig.cnt = 0 := by decide
theorem test_end_wordcount : statusWord (after (exec (.endRun 0 0) midFrame)) = 0x147 := by decide
theorem test_end_odd : statusWord (after (exec (.endRun 0 0) { midFrame with frameCnt := 0 })) = 0x10B := by decide
theorem test_rddiag_sample : (after (exec (.rddiag 0x00 0) { State.reset with diagSig := { cnt := 1, sample := #v[32, 0, 0, 0, 0] } })).resp =
    some 0x8000000020 ∧ (after (exec (.rddiag 0x01 0) { State.reset with diagSig := { cnt := 1, sample := #v[32, 9, 0, 0, 0] } })).resp = some 0 := by
  decide
theorem test_rdstat_status : (after (exec (.rdstat 0 0) midFrame)).resp = some 0x141 ∧
    (after (exec (.rdstat 0 0) { ended with cmdErr := true })).resp = some 0x157 := by decide
theorem test_reservedOpc : statusWord (after (exec (.reservedOpc 0x09 0 0 0) State.reset)) = 0x010 ∧
    (after (exec (.reservedOpc 0x09 0 0 0) State.reset)).resp = none := by decide
theorem test_fwHdr_stored : (after (exec (.fwHdr 0x13C5) State.reset)).frameBuf[0] = 0x93C5 := by decide
theorem test_fwHdr_misplaced : (after (exec (.fwHdr 0) beforeSideA)).diagSig = { cnt := 1, sample := #v[4, 0, 0, 0, 0] } := by decide
theorem test_fwCha_stored : (after (exec (.fwCha 0x1064) { midFrame with frameCnt := 1 })).frameBuf[1] = 0x1064 := by decide
theorem test_fwChb_stored : (after (exec (.fwChb 0x00C8) midFrame)).frameBuf[2] = 0x20C8 := by decide
theorem test_fwChc_stored : (after (exec (.fwChc 0x012C) { midFrame with frameCnt := 3 })).frameBuf[3] = 0x412C := by decide
theorem test_fwChd_completes : (after (exec (.fwChd 0x1190) beforeSideA)).pendA.chan[3] = 400 ∧
    (after (exec (.fwChd 0x1190) beforeSideA)).diagSig.cnt = 0 := by decide
theorem test_fwDummy_legal : (after (exec (.fwDummy 0) beforeSideA)).diagSig.cnt = 0 := by decide
theorem test_fwRsv6_violation : (after (exec (.fwRsv6 0) beforeSideA)).diagSig.cnt = 1 := by decide
theorem test_fwRsv7_violation : (after (exec (.fwRsv7 0) beforeEvent)).diagSig.sample[0] = 9 := by decide

/-! ### The codec, the validator and the selection: vectors of 95_test_vectors.md -/

theorem test_S1_encode : encode5 layoutDefault (singleOfNats 5 15 1 #v[1, 0, 0, 1] #v[4, 0, 1, 2, 3] #v[100, 200, 300, 400]) = frameA := by
  decide
theorem test_masked_encode : encode5 layoutDefault (singleOfNats 70 15 0 #v[0, 0, 0, 0] #v[4, 0, 1, 2, 3] #v[5000, 1, 2, 3]) =
    #v[0x83C6, 0x0388, 0x2001, 0x4002, 0x6003] := by decide
theorem test_decode5_mixed : decode5 layoutDefault #v[0x8A5A, 0x3ABC, 0x2123, 0x4FFF, 0x7001] =
    { marker := 26, flag := 41, delayed := 0, hold := #v[1, 0, 0, 1], check := #v[4, 1, 1, 2, 3], chan := #v[2748, 291, 4095, 1], sum := 7135 } := by
  decide
theorem test_insert : insert 15 6 6 = 0x03C0 ∧ insert 64 0 6 = 0 ∧ extract 0x93C5 6 6 = 15 := by decide
theorem test_sigchk_all_ones : sigchkSingle (decode5 layoutDefault #v[0xFFFF, 0xFFFF, 0xFFFF, 0xFFFF, 0xFFFF]) 0 = [0, 1, 2, 3, 4] ∧
    sigchkSingle (decode5 layoutDefault #v[0, 0, 0, 0, 0]) 0 = [0, 2, 3, 4] := by decide
theorem test_pairBad : pairBad (ev (mk 7 3 0) (mk 7 4 0) 0) = true ∧ pairBad (ev (mk 7 15 0) (mk 7 4 0) 0) = false ∧
    pairBad (ev (mk 7 14 0) (mk 7 16 0) 0) = true ∧ pairBad (ev (mk 7 3 0) (mk 8 4 0) 0) = false := by decide
theorem test_effmark : effmark (ev (mk 9 15 0) (mk 20 15 0) 0) = 20 ∧ effmark (ev (mk 9 0 0) (mk 20 15 0) 0) = 9 := by decide
/-- The three rows of 2.5 that tell the two settings of HOLD_MARKER_CMP apart. -/
theorem test_hold_marker_cmp :
    (contOk .effective (ev (mk 3 15 1) (mk 10 0 0) 0) (ev (mk 3 15 1) (mk 20 0 0) 1) = false ∧
      contOk .perSide (ev (mk 3 15 1) (mk 10 0 0) 0) (ev (mk 3 15 1) (mk 20 0 0) 1) = true) ∧
    (contOk .effective (ev (mk 3 15 1) (mk 10 0 0) 0) (ev (mk 4 15 1) (mk 10 0 0) 1) = true ∧
      contOk .perSide (ev (mk 3 15 1) (mk 10 0 0) 0) (ev (mk 4 15 1) (mk 10 0 0) 1) = false) ∧
    (contOk .effective (ev (mk 8 0 0) (mk 30 15 1) 0) (ev (mk 8 0 0) (mk 31 15 1) 1) = true ∧
      contOk .perSide (ev (mk 8 0 0) (mk 30 15 1) 0) (ev (mk 8 0 0) (mk 31 15 1) 1) = false) := by decide
theorem test_contchk_gap : contchk .effective [ev (mk 0 0 0) (mk 0 0 0) 0, ev (mk 1 0 0) (mk 0 0 0) 1, ev (mk 5 0 0) (mk 0 0 0) 2, ev (mk 6 0 0) (mk 0 0 0) 3] = [2] := by
  decide
theorem test_crop : crop (List.range 10) (some 2) (some 5) = [2, 3, 4] ∧ crop (List.range 10) none (some 3) = [0, 1, 2] ∧
    crop (List.range 10) (some 5) (some 2) = [] ∧ crop (List.range 10) (some 8) (some 20) = [8, 9] := by decide
/-- Bounds of 2.6: a negative lower bound keeps every value, a negative upper bound none. -/
theorem test_bounds : sideOk { cfgReset with lo := bankReset.set .chanC { en := true, val := -5 } } (mk 0 0 0) .chanC = true ∧
    sideOk { cfgReset with hi := bankReset.set .chanD { en := true, val := -1 } } (mk 0 0 0) .chanD = false := by decide
theorem test_byte_order : wordsOfBytes .little [0xC5, 0x93] = some [0x93C5] ∧ wordsOfBytes .big [0x93, 0xC5] = some [0x93C5] := by
  decide
theorem test_batch_P1 : (runBatch buildDefault cfgReset (frameA.toList ++ frameB.toList)) =
    .ok [ev (decode5 layoutDefault frameA) (decode5 layoutDefault frameB) 0]
      { sig := { count := 0, samples := [] }, pair := { count := 0, samples := [] }, cont := { count := 0, samples := [] } } := by
  decide
theorem test_batch_P4 : runBatch buildDefault cfgReset frameA.toList = .error .odd ∧
    runBatch buildDefault cfgReset [1, 2, 3] = .error .wordcount := by decide

/-! ### Witnesses: for each obligation with hypotheses, a case that meets all of them -/

theorem witness_DecodeOfEncode : (Instr.reservedOpc 0x08 0xFF 0xFF 0xFFFFFFFFFF).WellFormed ∧ (Instr.push 0xFF 0xFFFFFFFFFF).WellFormed ∧
    (Instr.fwRsv7 0x1FFF).WellFormed := by decide
theorem witness_EncodeOfDecode : decode (.command 0x07FF00FFFFFFFFFF) = .ok (.rdstat 0xFF 0xFFFFFFFFFF) := by decide

/-- A state whose next command is the word `w`. -/
def issuing (w : CmdWord) : State := { State.reset with input := [.word (.command w)] }

theorem witness_StepRunsDecoded : (issuing 0x0500000000000000).input = .word (.command 0x0500000000000000) :: [] ∧
    decode (.command 0x0500000000000000) = .ok (.endRun 0 0) := by decide
theorem witness_NonzeroReservedBits : (issuing 0x0400010000001234).input = .word (.command 0x0400010000001234) :: [] ∧
    (0x0400010000001234 : CmdWord).toNat / 2 ^ 56 < 8 ∧ (0x0400010000001234 : CmdWord).toNat / 2 ^ 40 % 256 ≠ 0 := by decide
/-- Both answers of that statement: opcode 7 with RSV 0xFF returns 0, opcode 4 returns none. -/
theorem witness_NonzeroReservedBits_both : (after (step (issuing 0x0700FF0000000000))).resp = some 0 ∧
    (after (step (issuing 0x0400010000001234))).resp = none := by decide
theorem witness_BlockWaits : State.reset.input = [] := by decide
theorem witness_PowerOnReset : ({ ended with input := [.powerOnReset] } : State).input = .powerOnReset :: [] := by decide
theorem witness_OnlyWellFormedLayouts : layoutOk buildDefault.layout = true ∧ layoutOk { layoutDefault with offMarker := 1 } = false := by
  decide
theorem witness_ReservedOpcode : 8 ≤ (0x08 : BitVec 8).toNat ∧ 8 ≤ (0xFF : BitVec 8).toNat := by decide
/-- Outside RUN, a policy write (value 2), a bound write, and the last writable select. -/
theorem witness_Wrcfg : State.reset.phase ≠ .run ∧ ended.phase ≠ .run ∧ ¬ BadWrite 0x00 2 ∧ ¬ BadWrite 0x08 0x01FFFFFFFB ∧
    ¬ BadWrite 0x14 3 := by
  refine ⟨by decide, by decide, ?_, ?_, ?_⟩ <;> (unfold BadWrite; decide)
theorem witness_Wrcfg_next : (after (exec (.wrcfg 0x14 0x0100000FA0) State.reset)).cfg.hi.sum = { en := true, val := 4000 } := by decide
/-- Both clauses of RDCFG's select: the last readable and the first reserved. -/
theorem witness_Rdcfg : (0x06 : BitVec 8).toNat ∉ readableSelects ∧ (0x40 : BitVec 8).toNat ∉ readableSelects ∧
    (0x3F : BitVec 8).toNat ∈ readableSelects := by decide
theorem witness_Rdstat_Rddiag_reserved : 5 < (6 : BitVec 8).toNat ∧ ¬ 5 < (5 : BitVec 8).toNat ∧
    3 ≤ (0xC0 : BitVec 8).toNat / 64 ∧ (0x08 : BitVec 8).toNat / 8 % 8 ≠ 0 ∧ (0x86 : BitVec 8).toNat % 8 = 6 := by decide
theorem witness_LayoutId : layoutOk State.reset.build.layout = true := by decide
/-- END: each of the four outcomes. -/
theorem witness_EndClosesRun : (after (exec (.endRun 0 0) ended)).cmdErr = true ∧ 
    (after (exec (.endRun 0 0) State.reset)).phase = .doneOk ∧ (after (exec (.endRun 0 0) midFrame)).errWordcount = true ∧
    (after (exec (.endRun 0 0) { midFrame with frameCnt := 0 })).errOdd = true := by decide
theorem witness_FrameWordIsPush : (Instr.fwHdr 0x13C5).pushedWord = some 0x93C5 ∧ (Instr.push 9 0xAB93C5).pushedWord = some 0x93C5 := by decide

/-- `beforeSideA` behind a window that begins at raw word 10. -/
def croppedState : State := { beforeSideA with cfg := { cfgReset with preBegin := { en := true, val := 1 } } }

theorem takesWords_of {s : State} (h : s.phase = .run) (hr : s.rawIdx.toNat < nRawMax) : TakesWords s := ⟨.inr h, hr⟩
theorem witness_PushOutside : (Instr.push 0 5).pushedWord = some 5 ∧ TakesWords croppedState ∧
    ¬ InWindow croppedState.cfg croppedState.rawIdx.toNat :=
  ⟨by decide, takesWords_of (by decide) (by decide), by unfold InWindow; decide⟩
/-- The two edges of the window [1, 3) events: raw words 10 and 29 are inside, 9 and 30 outside. -/
theorem witness_window_edges :
    let c := { cfgReset with preBegin := { en := true, val := 1 }, preEnd := { en := true, val := 3 } }
    ¬ InWindow c 9 ∧ InWindow c 10 ∧ InWindow c 29 ∧ ¬ InWindow c 30 := by
  refine ⟨?_, ?_, ?_, ?_⟩ <;> (unfold InWindow; decide)
theorem witness_PushStores : (Instr.fwChb 0xC8).pushedWord = some 0x20C8 ∧ TakesWords midFrame ∧
    InWindow midFrame.cfg midFrame.rawIdx.toNat ∧ midFrame.frameCnt.toNat < 4 :=
  ⟨by decide, takesWords_of (by decide) (by decide), by unfold InWindow; decide, by decide⟩
theorem witness_PushCompletesSideA : (Instr.push 0 0x7190).pushedWord = some 0x7190 ∧ TakesWords beforeSideA ∧
    InWindow beforeSideA.cfg beforeSideA.rawIdx.toNat ∧ beforeSideA.frameCnt = 4 ∧ beforeSideA.pendValid = false ∧
    frameA = beforeSideA.frameBuf.set 4 0x7190 :=
  ⟨by decide, takesWords_of (by decide) (by decide), by unfold InWindow; decide, by decide, by decide, by decide⟩
theorem witness_PushCompletesEvent : (Instr.push 0 0x6028).pushedWord = some 0x6028 ∧ TakesWords beforeEvent ∧
    InWindow beforeEvent.cfg beforeEvent.rawIdx.toNat ∧ beforeEvent.frameCnt = 4 ∧ beforeEvent.pendValid = true ∧
    beforeEvent.evtIdx.toNat ≠ nEvtMax ∧ frameB = beforeEvent.frameBuf.set 4 0x6028 ∧
    ev (decode5 layoutDefault frameA) (decode5 layoutDefault frameB) 0 =
      { a := beforeEvent.pendA, b := decode5 beforeEvent.build.layout frameB, position := beforeEvent.evtIdx.setWidth 32, status := 0 } :=
  ⟨by decide, takesWords_of (by decide) (by decide), by unfold InWindow; decide, by decide, by decide, by decide, by decide, by decide⟩
/-- The ways of that Event: kept or dropped by the filter, inside or outside the final window. -/
theorem witness_PushCompletesEvent_kept :
    Kept cfgReset (ev (decode5 layoutDefault frameA) (decode5 layoutDefault frameB) 0) ∧
    ¬ Kept { cfgReset with delayed := .requireFalse } (ev (decode5 layoutDefault frameA) (decode5 layoutDefault frameB) 0) ∧
    InFinalWindow cfgReset 0 ∧ ¬ InFinalWindow { cfgReset with postBegin := { en := true, val := 1 } } 0 := by
  refine ⟨⟨trivial, trivial, fun q => ?_⟩, fun h => ?_, ?_, ?_⟩
  · cases q <;> (unfold BoundsKeep; decide)
  · exact absurd h.1 (by unfold PolicyKeeps; decide)
  · unfold InFinalWindow; decide
  · unfold InFinalWindow; decide
/-- `beforeEvent` with a previous Event whose effective marker is 1: the Event about to be formed, with marker 6, breaks continuity. -/
theorem witness_PushCompletesEvent_break : ({ beforeEvent with prev := ev (mk 1 0 0) (mk 0 0 0) 0, prevValid := true } : State).prevValid = true ∧
    ¬ Continues .effective (ev (mk 1 0 0) (mk 0 0 0) 0) (ev (decode5 layoutDefault frameA) (decode5 layoutDefault frameB) 0) := by
  refine ⟨by decide, ?_⟩
  rintro (h | h | ⟨side, h, _⟩)
  · exact absurd h (by decide)
  · exact absurd h (by decide)
  · cases side <;> exact absurd h (by decide)
theorem witness_RecordKeepsFirstFive : (State.reset.diag .pair).cnt.toNat + [4, 9, 13, 20, 21, 30].length < 2 ^ 36 ∧
    ∀ p ∈ [4, 9, 13, 20, 21, 30], p < 2 ^ 36 := by decide

/-- Illegal commands of 95_test_vectors.md 2.7, one for each clause. -/
theorem witness_Illegal : Illegal midFrame (.wrcfg 0 0) ∧ Illegal State.reset (.wrcfg 0x06 0) ∧ Illegal State.reset (.wrcfg 0x3F 0) ∧
    Illegal State.reset (.wrcfg 0x00 3) ∧ Illegal State.reset (.rdcfg 0x06 0) ∧ Illegal State.reset (.rddiag 0xC0 0) ∧
    Illegal State.reset (.rddiag 0x08 0) ∧ Illegal State.reset (.rddiag 0x05 0) ∧ Illegal State.reset (.rdstat 0x06 0) ∧
    Illegal ended (.push 0 0) ∧ Illegal ended (.endRun 0 0) ∧ Illegal State.reset (.reservedOpc 0x08 0 0 0) ∧
    Illegal ended (.fwRsv7 0) := by
  refine ⟨?_, ?_, ?_, ?_, ?_, ?_, ?_, ?_, ?_, ?_, ?_, trivial, ?_⟩ <;> simp only [Illegal, BadWrite] <;> decide
/-- Legal neighbours of those: the edges of the select spaces. -/
theorem witness_Legal : ¬ Illegal State.reset (.rdcfg 0x3E 0) ∧ ¬ Illegal State.reset (.rddiag 0x87 0) ∧ ¬ Illegal State.reset (.rddiag 0x84 0) ∧
    ¬ Illegal State.reset (.rdstat 0x05 0) ∧ ¬ Illegal midFrame (.endRun 0 0) := by
  refine ⟨?_, ?_, ?_, ?_, ?_⟩ <;> simp only [Illegal] <;> decide
/-- CMD_ERR: each of the ways in and out. -/
theorem witness_CmdErr : (after (step (issuing 0x0400010000001234))).cmdErr = true ∧
    (after (step (issuing 0x0700000000000000))).cmdErr = false ∧
    (after (step { issuing 0x0700000000000000 with cmdErr := true })).cmdErr = true ∧
    (after (step { issuing 0x0100000000000000 with cmdErr := true })).cmdErr = false ∧
    (after (step { ended with cmdErr := true, input := [.powerOnReset] })).cmdErr = false ∧
    goesOn (step (issuing 0x0700000000000000)) = true := by decide
theorem witness_exec_next : exec (.rdstat 9 0) midFrame = .next { midFrame with cmdErr := true, resp := some 0 } ∧
    (Instr.rdstat 9 0).WellFormed ∧ (Instr.rdstat 9 0).reads = true ∧ (Instr.rdstat 9 0).isResetRun = false := by
  refine ⟨rfl, ?_, ?_, ?_⟩ <;> decide
/-- The two refusals of the capacity rule. -/
theorem witness_OnlyCapacity :
    goesOn (exec (.push 0 0) { beforeSideA with rawIdx := 0xFFFFFFFFF }) = false ∧
    goesOn (exec (.push 0 0) { beforeEvent with evtIdx := 0x100000000 }) = false ∧
    goesOn (exec (.push 0 0) { beforeSideA with rawIdx := 0xFFFFFFFFE }) = true ∧
    goesOn (exec (.push 0 0) { beforeEvent with evtIdx := 0x0FFFFFFFF }) = true := by decide
theorem witness_OneCommand : exec (.endRun 0 0) midFrame = .next ended ∧ (Instr.endRun 0 0).isResetRun = false := by
  refine ⟨rfl, ?_⟩; decide
theorem witness_ConfigurationIsFrozen : exec (.wrcfg 0 0) midFrame = .next { midFrame with cmdErr := true } ∧ midFrame.phase = .run ∧
    (after (exec (.wrcfg 0 0) State.reset)).cfg ≠ State.reset.cfg := by
  refine ⟨rfl, ?_, ?_⟩ <;> decide
theorem witness_BuildNeverChanges : step { ended with input := [.word (.command 0)] } = .next ended := rfl
theorem witness_RunIsFinal : (ended.phase = .doneOk ∨ ended.phase = .doneErr) ∧ (Instr.push 0 0x1234).isResetRun = false ∧
    exec (.push 0 0x1234) ended = .next { ended with cmdErr := true } := by
  refine ⟨?_, ?_, rfl⟩ <;> decide
theorem witness_OnlyPushedWordsEmit : (Instr.push 0 0x6028).isResetRun = false ∧ goesOn (exec (.push 0 0x6028) beforeEvent) = true := by decide
theorem phaseInv_ended : PhaseInv ended := by constructor <;> decide
theorem witness_ResultIsDefined : PhaseInv ended ∧ ended.result = some (.error .wordcount) := ⟨phaseInv_ended, by decide⟩

theorem witness_codec_layouts : layoutOk layoutDefault = true ∧
    layoutOk { offMarker := 7, offFlag := 1, offDelayed := 0, offChan := 1, offHold := 0 } = true := by decide
theorem witness_Serialize : layoutOk layoutDefault = true ∧ (frameA.toList ++ frameB.toList).length % 10 = 0 := by decide
theorem witness_Pair : [mk 1 0 0, mk 2 0 0].length % 2 = 0 ∧
    ∀ k (h : k < [ev (mk 1 0 0) (mk 2 0 0) 0].length), [ev (mk 1 0 0) (mk 2 0 0) 0][k].position = BitVec.ofNat 32 k ∧
      [ev (mk 1 0 0) (mk 2 0 0) 0][k].status = 0 := by decide
/-- The clauses of Continues, each with an Event that meets it and a neighbour that does not: 5 to 6, 63 to 0, and the rows of
2.5 that tell the settings of HOLD_MARKER_CMP apart. -/
theorem witness_Continues_marker : Continues .effective (ev (mk 5 0 0) (mk 0 0 0) 0) (ev (mk 6 0 0) (mk 0 0 0) 1) ∧
    Continues .perSide (ev (mk 63 0 0) (mk 0 0 0) 0) (ev (mk 0 0 0) (mk 0 0 0) 1) ∧
    liveMarker (ev (mk 9 15 0) (mk 20 15 0) 0) = 20 ∧ liveMarker (ev (mk 9 0 0) (mk 20 15 0) 0) = 9 :=
  ⟨.inl (by decide), .inr (.inl (by decide)), by decide, by decide⟩
theorem witness_Continues_hold : HoldExcuses .perSide (ev (mk 3 15 1) (mk 10 0 0) 0) (ev (mk 3 15 1) (mk 20 0 0) 1) ∧
    HoldExcuses .effective (ev (mk 8 0 0) (mk 30 15 1) 0) (ev (mk 8 0 0) (mk 31 15 1) 1) :=
  ⟨⟨.a, by decide, by decide, by decide⟩, ⟨.b, by decide, by decide, by decide⟩⟩
/-- A break: 1 to 5, no hold. -/
theorem witness_not_Continues : ¬ Continues .effective (ev (mk 1 0 0) (mk 0 0 0) 0) (ev (mk 5 0 0) (mk 0 0 0) 1) := by
  rintro (h | h | ⟨side, h, _⟩)
  · exact absurd h (by decide)
  · exact absurd h (by decide)
  · cases side <;> exact absurd h (by decide)
/-- Both ways of a collision, at the sentinel 15 and beside it. -/
theorem witness_Collides : Collides (ev (mk 7 14 0) (mk 7 16 0) 0) ∧ ¬ Collides (ev (mk 7 15 0) (mk 7 4 0) 0) ∧
    ¬ Collides (ev (mk 7 3 0) (mk 8 4 0) 0) := by
  refine ⟨?_, ?_, ?_⟩ <;> (unfold Collides; decide)

/-- Bounds on the sum alone. -/
def sumBounds (lo hi : Option (BitVec 32)) : Cfg :=
  { cfgReset with
    lo := bankReset.set .sum { en := lo.isSome, val := lo.getD 0 }, hi := bankReset.set .sum { en := hi.isSome, val := hi.getD 0 } }

/-- The premises of each clause about bounds: both at 4000, reversed, a negative lower one alone, a negative upper one. -/
theorem witness_Bounds :
    (((sumBounds (some 4000) (some 4000)).lo.get .sum).en = true ∧ ((sumBounds (some 4000) (some 4000)).hi.get .sum).en = true ∧
      signedNumber ((sumBounds (some 4000) (some 4000)).lo.get .sum).val = (4000 : Nat) ∧
      signedNumber ((sumBounds (some 4000) (some 4000)).hi.get .sum).val = (4000 : Nat)) ∧
    signedNumber ((sumBounds (some 10) (some 5)).hi.get .sum).val < signedNumber ((sumBounds (some 10) (some 5)).lo.get .sum).val ∧
    (((sumBounds (some (-5)) none).lo.get .sum).en = true ∧ ((sumBounds (some (-5)) none).hi.get .sum).en = false ∧
      signedNumber ((sumBounds (some (-5)) none).lo.get .sum).val < 0) ∧
    (((sumBounds none (some (-1))).hi.get .sum).en = true ∧ signedNumber ((sumBounds none (some (-1))).hi.get .sum).val < 0) := by
  decide
/-- The ends of the signed range, and where its halves meet. -/
theorem witness_signedNumber : signedNumber 0x7FFFFFFF = 2 ^ 31 - 1 ∧ signedNumber 0x80000000 = -(2 ^ 31) ∧
    signedNumber 0xFFFFFFFF = -1 ∧ signedNumber 0 = 0 := by decide
/-- 2.6: a sum of 16380 is kept by an upper bound of 16380 and dropped by one of 16379. -/
theorem witness_BoundsKeep : BoundsKeep (sumBounds (some 0) (some 16380)) .sum 16380 ∧
    ¬ BoundsKeep (sumBounds none (some 16379)) .sum 16380 := by
  refine ⟨?_, ?_⟩ <;> (unfold BoundsKeep; decide)
/-- An Event that is kept, and two that a policy drops. -/
theorem witness_Kept : Kept cfgReset (ev (mk 1 0 0) (mk 1 0 0) 0) ∧
    ¬ Kept { cfgReset with delayed := .requireTrue } (ev (mk 1 0 0) (mk 1 0 0) 0) ∧
    ¬ Kept { cfgReset with flagged := .requireFalse } (ev (mk 1 0 0) (mk 1 0 1) 0) := by
  refine ⟨⟨trivial, trivial, fun q => ?_⟩, fun h => ?_, fun h => ?_⟩
  · cases q <;> (unfold BoundsKeep; decide)
  · exact absurd h.1 (by unfold PolicyKeeps; decide)
  · exact absurd h.2.1 (by unfold PolicyKeeps; decide)
theorem witness_HostThresholds : (0 : Nat) ≤ 16380 ∧ (16380 : Nat) ≤ 16380 ∧ clampBound (2 ^ 40) = 2 ^ 31 - 1 ∧
    clampBound (-(2 ^ 40)) = -(2 ^ 31) := by decide
/-- The two ends of the range of a bound. -/
theorem witness_AssembledBound : State.reset.phase ≠ .run ∧ (-(2 ^ 31) : Int) ≤ -(2 ^ 31) ∧ (-(2 ^ 31) : Int) < 2 ^ 31 ∧
    (-(2 ^ 31) : Int) ≤ 2 ^ 31 - 1 ∧ (2 ^ 31 - 1 : Int) < 2 ^ 31 := by decide

theorem recordInv_beforeEvent : RecordInv beforeEvent :=
  ⟨fun _ => by unfold SumOk; decide, fun h => absurd h (by decide), fun _ h => absurd h (by simp [beforeEvent, State.reset, State.resetOf])⟩
theorem witness_StepKeepsRecords : RecordInv { beforeEvent with input := [.word (.frame 0x6028)] } ∧
    goesOn (step { beforeEvent with input := [.word (.frame 0x6028)] }) = true :=
  ⟨⟨recordInv_beforeEvent.pend, recordInv_beforeEvent.prev, recordInv_beforeEvent.out⟩, by decide⟩
theorem diagInv_zero (b : Nat) : DiagInv diagZero b := ⟨by simp [diagZero], by simp [diagZero], by simp [diagZero]⟩
theorem witness_StepKeepsRunInvariant : RunInv { beforeEvent with input := [.word (.frame 0x6028)] } ∧
    goesOn (step { beforeEvent with input := [.word (.frame 0x6028)] }) = true := by
  refine ⟨⟨?_, ⟨?_, ?_, ?_, diagInv_zero _, diagInv_zero _, diagInv_zero _⟩, ?_⟩, by decide⟩
  · constructor <;> decide
  · decide
  · simp [beforeEvent, State.reset, State.resetOf]
  · simp [beforeEvent, State.reset, State.resetOf]
  · constructor <;> decide

/-- `midFrame` with other contents where no rule may read. -/
def otherGuarded : State := { midFrame with frameBuf := #v[0x80C6, 0x000A, 1, 2, 3], prev := ev (mk 1 2 1) (mk 3 4 1) 9, freeCtr := 7 }

theorem witness_Interleaved : Interleaved true (.wrcfg 0 0) ∧ midFrame.phase = .run ∧ Interleaved false (.wrcfg 0x3F 0) ∧
    exec (.wrcfg 0 0) midFrame = .next { midFrame with cmdErr := true } :=
  ⟨.inl rfl, by decide, .inr (by unfold BadWrite; decide), rfl⟩
theorem witness_SameVisible : SameVisible midFrame otherGuarded ∧ midFrame ≠ otherGuarded := by
  refine ⟨⟨rfl, ?_, fun _ => rfl, fun h => absurd h (by decide), ⟨rfl, fun _ _ => rfl⟩, ⟨rfl, fun _ _ => rfl⟩, ⟨rfl, fun _ _ => rfl⟩⟩, by decide⟩
  decide
theorem witness_SameButDiagnostics :
    SameButDiagnostics midFrame { midFrame with diagSig := { cnt := 3, sample := #v[0, 2, 4, 0, 0] }, resp := some 1 } := rfl

/-- A short session: two words of side a, with an illegal write, a read and a rejected word between, and END. -/
def sessionItems : List HostItem :=
  [ .word (.command 0x04000000000093C5), .word (.command 0x0200000000000000), .word (.frame 0x1064),
    .word (.command 0x0700000000000000), .word (.command 0x0400010000001234), .word (.command 0x0500000000000000) ]

theorem session_short : Session false sessionItems [0x93C5, 0x1064] := by
  refine .push (i := .push 0 0x93C5) rfl rfl ?_
  refine .between (i := .wrcfg 0 0) rfl (.inl rfl) ?_
  refine .push (i := .fwCha 0x1064) rfl rfl ?_
  refine .between (i := .rdstat 0 0) rfl trivial ?_
  refine .rejected (err := .rsvNonzero 4) rfl ?_
  exact .finish (sel := 0) (data := 0) rfl
theorem runStart_reset : RunStart { State.reset with input := sessionItems } := by constructor <;> decide
theorem witness_StreamingEqualsBatch : RunStart { State.reset with input := sessionItems } ∧
    ({ State.reset with input := sessionItems } : State).input = sessionItems ++ [] ∧ Session false sessionItems [0x93C5, 0x1064] ∧
    WithinCapacity State.reset.cfg [0x93C5, 0x1064] :=
  ⟨runStart_reset, by simp, session_short, by unfold WithinCapacity; decide⟩

end Sys2Proof.Tests
end

section
/-!
PROOFS. The frame codec (40_frame_codec.md R113 to R119): what EXTRACT reads out of an INSERT and what INSERT puts back of an
EXTRACT, as bits; from these the words of ENCODE5, and its round trips with DECODE5 under every well-formed layout.
-/
namespace Sys2Proof.Machine

/-! ### EXTRACT and INSERT -/

/-- R113: EXTRACT as a number. -/
theorem toNat_extract (w : Word) (off len : Nat) : (extract w off len).toNat = w.toNat / 2 ^ off % 2 ^ len := by
  rw [extract, BitVec.extractLsb'_toNat, Nat.shiftRight_eq_div_pow]

theorem getLsbD_extract (w : Word) (off len i : Nat) :
    (extract w off len).getLsbD i = (decide (i < len) && w.getLsbD (off + i)) :=
  BitVec.getLsbD_extractLsb' off len w i

theorem extract_or (a b : Word) (off len : Nat) : extract (a ||| b) off len = extract a off len ||| extract b off len :=
  BitVec.extractLsb'_or

/-- R116: the bits of an inserted field are the field's own bits moved up by the offset, and 0 outside it. -/
theorem getLsbD_insert {len : Nat} (v : BitVec len) (off i : Nat) :
    (insert v.toNat off len).getLsbD i = (decide (i < 16) && decide (off ≤ i) && v.getLsbD (i - off)) := by
  rw [insert, BitVec.ofNat_toNat, BitVec.setWidth_eq, BitVec.getLsbD_shiftLeft, BitVec.getLsbD_setWidth]
  by_cases h : i < 16
  · have hsub : i - off < 16 := by omega
    simp only [h, hsub, decide_true, Bool.true_and, ← decide_not, Nat.not_lt]
  · simp [h]

/-- R116: an inserted field that fits its word, as a number. -/
theorem toNat_insert {len : Nat} (v : BitVec len) {off : Nat} (h : off + len ≤ 16) :
    (insert v.toNat off len).toNat = v.toNat * 2 ^ off := by
  have hlt : v.toNat * 2 ^ off < 2 ^ 16 := calc
    v.toNat * 2 ^ off < 2 ^ len * 2 ^ off := Nat.mul_lt_mul_of_pos_right v.isLt (by positivity)
    _ = 2 ^ (off + len) := by rw [← pow_add, add_comm]
    _ ≤ 2 ^ 16 := Nat.pow_le_pow_right (by decide) h
  rw [insert, BitVec.ofNat_toNat, BitVec.setWidth_eq, BitVec.toNat_shiftLeft, BitVec.toNat_setWidth_of_le (by omega),
    Nat.shiftLeft_eq, Nat.mod_eq_of_lt hlt]

/-- A field is read back from the place it was inserted at. -/
theorem extract_insert_self {len : Nat} (v : BitVec len) {off : Nat} (h : off + len ≤ 16) :
    extract (insert v.toNat off len) off len = v := by
  apply BitVec.eq_of_getLsbD_eq
  intro i hi
  have hword : off + i < 16 := by omega
  rw [getLsbD_extract, getLsbD_insert, Nat.add_sub_cancel_left]
  simp [hi, hword]

/-- A field inserted elsewhere does not reach the bits that are read. -/
theorem extract_insert_apart {len' : Nat} (v : BitVec len') {off off' len : Nat}
    (h : off + len ≤ off' ∨ off' + len' ≤ off) : extract (insert v.toNat off' len') off len = 0 := by
  apply BitVec.eq_of_getLsbD_eq
  intro i hi
  rw [getLsbD_extract, getLsbD_insert]
  obtain below | above := h
  · have : ¬ off' ≤ off + i := by omega
    simp [this]
  · have : v.getLsbD (off + i - off') = false := BitVec.getLsbD_of_ge _ _ (by omega)
    simp [this]

/-- Two fields inserted apart from each other share no bit. -/
theorem insert_and_insert_apart {len len' : Nat} (u : BitVec len) (v : BitVec len') {off off' : Nat}
    (h : off + len ≤ off' ∨ off' + len' ≤ off) : insert u.toNat off len &&& insert v.toNat off' len' = 0 := by
  apply BitVec.eq_of_getLsbD_eq
  intro i hi
  rw [BitVec.getLsbD_and, getLsbD_insert, getLsbD_insert]
  obtain below | above := h
  · by_cases hoff : off' ≤ i
    · have : u.getLsbD (i - off) = false := BitVec.getLsbD_of_ge _ _ (by omega)
      simp [this]
    · simp [hoff]
  · by_cases hoff : off ≤ i
    · have : v.getLsbD (i - off') = false := BitVec.getLsbD_of_ge _ _ (by omega)
      simp [this]
    · simp [hoff]

/-- Words that share no bit add up: their union is their sum, as numbers. -/
theorem toNat_or_of_and_eq_zero {a b : Word} (h : a &&& b = 0) : (a ||| b).toNat = a.toNat + b.toNat := by
  rw [← BitVec.add_eq_or_of_and_eq_zero a b h, BitVec.toNat_add_of_and_eq_zero h]

/-- Reading a field and inserting it again keeps the word's bits at the field's place and clears the others. -/
theorem getLsbD_insert_extract (w : Word) {off len i : Nat} (hi : i < 16) :
    (insert (extract w off len).toNat off len).getLsbD i =
      (decide (off ≤ i ∧ i < off + len) && w.getLsbD i) := by
  rw [getLsbD_insert, getLsbD_extract]
  by_cases hoff : off ≤ i
  · have hlen : i - off < len ↔ i < off + len := by omega
    simp [hi, hoff, hlen]
  · simp [hoff]

/-! ### A well-formed layout -/

/-- R82: the fields lie below the check field, and those of one word share no bit. -/
theorem layoutOk_iff (l : Layout) : layoutOk l = true ↔
    ((l.offMarker + 6 ≤ 13 ∧ l.offFlag + 6 ≤ 13 ∧ l.offDelayed + 1 ≤ 13) ∧
      (l.offMarker + 6 ≤ l.offFlag ∨ l.offFlag + 6 ≤ l.offMarker) ∧
      (l.offMarker + 6 ≤ l.offDelayed ∨ l.offDelayed + 1 ≤ l.offMarker) ∧
      (l.offFlag + 6 ≤ l.offDelayed ∨ l.offDelayed + 1 ≤ l.offFlag)) ∧
    (l.offChan + 12 ≤ 13 ∧ l.offHold + 1 ≤ 13) ∧
      (l.offChan + 12 ≤ l.offHold ∨ l.offHold + 1 ≤ l.offChan) := by
  simp only [layoutOk, Bool.and_eq_true, Bool.or_eq_true, decide_eq_true_eq]
  tauto

/-! ### The words of a frame -/

theorem vector_ext_fin {α : Type} {n : Nat} {u v : Vector α n} (h : ∀ k : Fin n, u[k] = v[k]) : u = v :=
  Vector.ext fun i hi => h ⟨i, hi⟩

theorem encode5_zero (l : Layout) (x : Single) : (encode5 l x)[0] = encodeHeader l x := rfl

theorem encode5_succ (l : Layout) (x : Single) (j : Fin 4) :
    (encode5 l x)[j.succ] = encodeChannel l x.check[j.succ] x.hold[j] x.chan[j] := by
  fin_cases j <;> rfl

theorem decode5_check (l : Layout) (w : Frame) : (decode5 l w).check = decodeCheck w := rfl
theorem decode5_hold (l : Layout) (w : Frame) : (decode5 l w).hold = decodeHold l w := rfl
theorem decode5_chan (l : Layout) (w : Frame) : (decode5 l w).chan = decodeChan l w := rfl

theorem getElem_decodeCheck (w : Frame) (k : Fin 5) : (decodeCheck w)[k] = extract w[k] 13 3 := by
  fin_cases k <;> rfl

theorem getElem_decodeHold (l : Layout) (w : Frame) (j : Fin 4) :
    (decodeHold l w)[j] = extract w[j.succ] l.offHold 1 := by
  fin_cases j <;> rfl

theorem getElem_decodeChan (l : Layout) (w : Frame) (j : Fin 4) :
    (decodeChan l w)[j] = extract w[j.succ] l.offChan 12 := by
  fin_cases j <;> rfl

/-- R117: word 0 of an encoded Single as a number. -/
theorem toNat_encodeHeader {l : Layout} (h : layoutOk l = true) (x : Single) :
    (encodeHeader l x).toNat = x.check[0].toNat * 2 ^ 13 + x.delayed.toNat * 2 ^ l.offDelayed +
      x.flag.toNat * 2 ^ l.offFlag + x.marker.toNat * 2 ^ l.offMarker := by
  obtain ⟨⟨⟨hM, hF, hD⟩, hMF, hMD, hFD⟩, -⟩ := (layoutOk_iff l).mp h
  rw [encodeHeader, toNat_or_of_and_eq_zero, toNat_or_of_and_eq_zero, toNat_or_of_and_eq_zero]
  · simp (disch := omega) only [toNat_insert]
  all_goals simp (disch := omega) only [BitVec.and_or_distrib_right, insert_and_insert_apart, BitVec.or_self]

/-- R117: a channel word of an encoded Single as a number. -/
theorem toNat_encodeChannel {l : Layout} (h : layoutOk l = true) (c : BitVec 3) (d : BitVec 1) (v : BitVec 12) :
    (encodeChannel l c d v).toNat = c.toNat * 2 ^ 13 + d.toNat * 2 ^ l.offHold + v.toNat * 2 ^ l.offChan := by
  obtain ⟨-, ⟨hC, hH⟩, hCH⟩ := (layoutOk_iff l).mp h
  rw [encodeChannel, toNat_or_of_and_eq_zero, toNat_or_of_and_eq_zero]
  · simp (disch := omega) only [toNat_insert]
  all_goals simp (disch := omega) only [BitVec.and_or_distrib_right, insert_and_insert_apart, BitVec.or_self]

/-- Every field of a Single is read back from its encoded word 0. -/
theorem extract_encodeHeader {l : Layout} (h : layoutOk l = true) (x : Single) :
    extract (encodeHeader l x) 13 3 = x.check[0] ∧ extract (encodeHeader l x) l.offDelayed 1 = x.delayed ∧
      extract (encodeHeader l x) l.offFlag 6 = x.flag ∧ extract (encodeHeader l x) l.offMarker 6 = x.marker := by
  obtain ⟨⟨⟨hM, hF, hD⟩, hMF, hMD, hFD⟩, -⟩ := (layoutOk_iff l).mp h
  unfold encodeHeader
  refine ⟨?_, ?_, ?_, ?_⟩ <;>
    simp (disch := omega) [extract_or, extract_insert_self, extract_insert_apart]

/-- Every field is read back from its encoded channel word. -/
theorem extract_encodeChannel {l : Layout} (h : layoutOk l = true) (c : BitVec 3) (d : BitVec 1) (v : BitVec 12) :
    extract (encodeChannel l c d v) 13 3 = c ∧ extract (encodeChannel l c d v) l.offHold 1 = d ∧
      extract (encodeChannel l c d v) l.offChan 12 = v := by
  obtain ⟨-, ⟨hC, hH⟩, hCH⟩ := (layoutOk_iff l).mp h
  unfold encodeChannel
  refine ⟨?_, ?_, ?_⟩ <;>
    simp (disch := omega) [extract_or, extract_insert_self, extract_insert_apart]

/-- R118 for word 0: a well-formed layout covers each of its 16 bits. -/
theorem encodeHeader_decode5 {l : Layout} (h : layoutOk l = true) (w : Frame) :
    encodeHeader l (decode5 l w) = w[0] := by
  obtain ⟨⟨⟨hM, hF, hD⟩, hMF, hMD, hFD⟩, -⟩ := (layoutOk_iff l).mp h
  have hcheck : (decode5 l w).check[0] = extract w[0] 13 3 := rfl
  apply BitVec.eq_of_getLsbD_eq
  intro i hi
  have covered : (13 ≤ i ∧ i < 13 + 3) ∨ (l.offDelayed ≤ i ∧ i < l.offDelayed + 1) ∨
      (l.offFlag ≤ i ∧ i < l.offFlag + 6) ∨ (l.offMarker ≤ i ∧ i < l.offMarker + 6) := by omega
  rw [encodeHeader, hcheck]
  simp only [BitVec.getLsbD_or, decode5, getLsbD_insert_extract _ hi, ← Bool.and_or_distrib_right, ← Bool.decide_or]
  rw [decide_eq_true (by tauto), Bool.true_and]

/-- R118 for a channel word: a well-formed layout covers each of its 16 bits. -/
theorem encodeChannel_extract {l : Layout} (h : layoutOk l = true) (w : Word) :
    encodeChannel l (extract w 13 3) (extract w l.offHold 1) (extract w l.offChan 12) = w := by
  obtain ⟨-, ⟨hC, hH⟩, hCH⟩ := (layoutOk_iff l).mp h
  apply BitVec.eq_of_getLsbD_eq
  intro i hi
  have covered : (13 ≤ i ∧ i < 13 + 3) ∨ (l.offHold ≤ i ∧ i < l.offHold + 1) ∨
      (l.offChan ≤ i ∧ i < l.offChan + 12) := by omega
  rw [encodeChannel]
  simp only [BitVec.getLsbD_or, getLsbD_insert_extract _ hi, ← Bool.and_or_distrib_right, ← Bool.decide_or]
  rw [decide_eq_true (by tauto), Bool.true_and]

/-- Settles O38, word by word. -/
theorem encodeOfDecodedFrameIsFrame : Obligations.EncodeOfDecodedFrameIsFrame := by
  intro l w h
  refine vector_ext_fin (Fin.cases (encodeHeader_decode5 h w) fun j => ?_)
  rw [encode5_succ, decode5_check, decode5_hold, decode5_chan, getElem_decodeCheck, getElem_decodeHold,
    getElem_decodeChan, encodeChannel_extract h]

/-- R119 for the check values of all five words. -/
theorem decodeCheck_encode5 {l : Layout} (h : layoutOk l = true) (x : Single) : decodeCheck (encode5 l x) = x.check := by
  obtain ⟨hheader, -⟩ := extract_encodeHeader h x
  refine vector_ext_fin (Fin.cases hheader fun j => ?_)
  obtain ⟨hcheck, -⟩ := extract_encodeChannel h x.check[j.succ] x.hold[j] x.chan[j]
  rw [getElem_decodeCheck, encode5_succ, hcheck]

/-- R119 for the four hold bits. -/
theorem decodeHold_encode5 {l : Layout} (h : layoutOk l = true) (x : Single) : decodeHold l (encode5 l x) = x.hold := by
  refine vector_ext_fin fun j => ?_
  obtain ⟨-, hhold, -⟩ := extract_encodeChannel h x.check[j.succ] x.hold[j] x.chan[j]
  rw [getElem_decodeHold, encode5_succ, hhold]

/-- R119 for the four channels. -/
theorem decodeChan_encode5 {l : Layout} (h : layoutOk l = true) (x : Single) : decodeChan l (encode5 l x) = x.chan := by
  refine vector_ext_fin fun j => ?_
  obtain ⟨-, -, hchan⟩ := extract_encodeChannel h x.check[j.succ] x.hold[j] x.chan[j]
  rw [getElem_decodeChan, encode5_succ, hchan]

/-- R119: decoding an encoded Single gives the Single with its sum recomputed. -/
theorem decode5_encode5 {l : Layout} (h : layoutOk l = true) (x : Single) :
    decode5 l (encode5 l x) = { x with sum := sumChan x.chan } := by
  obtain ⟨-, hdelayed, hflag, hmarker⟩ := extract_encodeHeader h x
  simp only [decode5, encode5_zero, hdelayed, hflag, hmarker, decodeCheck_encode5 h, decodeHold_encode5 h,
    decodeChan_encode5 h]

/-- Settles O39. -/
theorem decodeOfEncodedSingleRecomputesSum : Obligations.DecodeOfEncodedSingleRecomputesSum := by
  intro l x h
  refine ⟨toNat_encodeHeader h x, fun j => ?_, decode5_encode5 h x⟩
  rw [encode5_succ, toNat_encodeChannel h]

/-! ### The sum -/

/-- R115: four 12-bit channels add up without a carry out of 32 bits. -/
theorem toNat_sumChan (chan : Vector (BitVec 12) 4) :
    (sumChan chan).toNat = chan[0].toNat + chan[1].toNat + chan[2].toNat + chan[3].toNat := by
  rw [sumChan]
  bv_omega

/-- R120: the sum of a decoded Single is the exact sum of its channels. -/
theorem sumOk_decode5 (l : Layout) (w : Frame) : SumOk (decode5 l w) := toNat_sumChan _

/-- R115: the sum is at most four times the greatest channel value. -/
theorem SumOk.toNat_sum_le {x : Single} (h : SumOk x) : x.sum.toNat ≤ 16380 := by
  unfold SumOk at h
  bv_omega

/-- Settles O40: each field by EXTRACT as a number, the sum by its exactness. -/
theorem decodeReadsFieldsFromTheirPlaces : Obligations.DecodeReadsFieldsFromTheirPlaces := by
  rintro l w _ rfl
  refine ⟨toNat_extract _ _ _, toNat_extract _ _ _, toNat_extract _ _ _, fun k => ?_, fun j => ⟨?_, ?_⟩,
    sumOk_decode5 l w, (sumOk_decode5 l w).toNat_sum_le⟩
  · rw [decode5_check, getElem_decodeCheck]
    exact toNat_extract _ _ _
  · rw [decode5_chan, getElem_decodeChan]
    exact toNat_extract _ _ _
  · rw [decode5_hold, getElem_decodeHold]
    exact toNat_extract _ _ _

end Sys2Proof.Machine
end

section
/-!
PROOFS. The validator's verdicts (42_validator.md R164 to R171): what each test answers in fields and numbers.
-/
namespace Sys2Proof.Machine

/-! ### Flags and effective markers -/

theorem eq_dummyFlag_iff (f : BitVec 6) : f = dummyFlag ↔ f.toNat = 15 := BitVec.toNat_eq

/-- R166: EFFMARK as a number. -/
theorem toNat_effmark (e : Event) : (effmark e).toNat = liveMarker e := by
  simp only [effmark, liveMarker, eq_dummyFlag_iff]
  split <;> rfl

theorem liveMarker_lt (e : Event) : liveMarker e < 64 := by
  rw [← toNat_effmark]
  exact (effmark e).isLt

/-! ### Pairwise match -/

/-- R164: PAIR_BAD compares only the markers, and only where neither flag is 15. -/
theorem pairBad_iff (e : Event) : pairBad e = true ↔ Collides e := by
  rw [pairBad, Bool.and_eq_true, Bool.and_eq_true, beq_iff_eq, bne_iff_ne, bne_iff_ne, and_assoc]
  exact and_congr BitVec.toNat_eq (and_congr (eq_dummyFlag_iff _).not (eq_dummyFlag_iff _).not)

/-- Settles O47. -/
theorem pairBadIsMarkerCollision : Obligations.PairBadIsMarkerCollision := pairBad_iff

/-! ### Increment and wraparound -/

/-- R167: INCR_OK as an exact difference. -/
theorem incrOk_iff (p c : Event) : incrOk p c = true ↔ (liveMarker c : Int) - liveMarker p = 1 := by
  rw [incrOk, decide_eq_true_iff, toNat_effmark, toNat_effmark]

/-- R168: WRAP_OK as an exact difference. -/
theorem wrapOk_iff (p c : Event) : wrapOk p c = true ↔ (liveMarker p : Int) - liveMarker c = 63 := by
  rw [wrapOk, decide_eq_true_iff, toNat_effmark, toNat_effmark]

/-- R168: two 6-bit markers differ by 63 only at the two ends of their range. -/
theorem wrapOk_iff_ends (p c : Event) : wrapOk p c = true ↔ liveMarker p = 63 ∧ liveMarker c = 0 := by
  have hp := liveMarker_lt p
  rw [wrapOk_iff]
  omega

/-- R167, R168: the two ways a marker advances, without differences. -/
theorem incrOk_or_wrapOk_iff (p c : Event) : (incrOk p c || wrapOk p c) = true ↔
    liveMarker c = liveMarker p + 1 ∨ (liveMarker p = 63 ∧ liveMarker c = 0) := by
  rw [Bool.or_eq_true, incrOk_iff, wrapOk_iff_ends]
  omega

/-- Settles O45: below 64 each difference modulo 64 or 256 has only the exact one and one carried around the modulus. -/
theorem incrementOrWrapIsModulo64 : Obligations.IncrementOrWrapIsModulo64 := by
  intro p c m n hm hn
  rw [toNat_effmark] at hm hn
  subst hm hn
  have hp := liveMarker_lt p
  have hc := liveMarker_lt c
  rw [incrOk_or_wrapOk_iff]
  refine ⟨?_, ?_, ?_⟩ <;> omega

/-! ### The hold exception and the verdict -/

/-- R170: HOLD_OK asks one side for both hold bits and for equal markers. -/
theorem holdOk_iff_exists_side (h : HoldMarkerCmp) (p c : Event) : holdOk h p c = true ↔
    ∃ side : Side, (p.side side).hold[0] = 1 ∧ (c.side side).hold[0] = 1 ∧ markersEq h p c side = true := by
  simp only [holdOk, Bool.or_eq_true, Bool.and_eq_true, beq_iff_eq, and_assoc]
  constructor
  · rintro (ha | hb)
    · exact ⟨.a, ha⟩
    · exact ⟨.b, hb⟩
  · rintro ⟨side, hside⟩
    cases side with
    | a => exact .inl hside
    | b => exact .inr hside

/-- R170: MEQ where the build compares effective markers; the side plays no part. -/
theorem markersEq_effective_iff (p c : Event) (side : Side) :
    markersEq .effective p c side = true ↔ liveMarker p = liveMarker c := by
  rw [markersEq, beq_iff_eq, BitVec.toNat_eq, toNat_effmark, toNat_effmark]

/-- R170: MEQ where the build compares the markers of the held side. -/
theorem markersEq_perSide_iff (p c : Event) (side : Side) :
    markersEq .perSide p c side = true ↔ (p.side side).marker.toNat = (c.side side).marker.toNat := by
  rw [markersEq, beq_iff_eq, BitVec.toNat_eq]

/-- R170: HOLD_OK in fields and numbers. -/
theorem holdOk_iff (h : HoldMarkerCmp) (p c : Event) : holdOk h p c = true ↔ HoldExcuses h p c := by
  rw [holdOk_iff_exists_side]
  refine exists_congr fun side => and_congr BitVec.toNat_eq (and_congr BitVec.toNat_eq ?_)
  cases h with
  | effective => exact markersEq_effective_iff p c side
  | perSide => exact markersEq_perSide_iff p c side

/-- R171: CONT_OK in fields and numbers. -/
theorem contOk_iff (h : HoldMarkerCmp) (p c : Event) : contOk h p c = true ↔ Continues h p c := by
  rw [contOk, Bool.or_eq_true, incrOk_or_wrapOk_iff, holdOk_iff, or_assoc, Continues]

/-- Settles O46: each test by its own equivalence. -/
theorem continuityVerdictIsExact : Obligations.ContinuityVerdictIsExact := fun h p c =>
  ⟨toNat_effmark c, incrOk_iff p c, wrapOk_iff p c, wrapOk_iff_ends p c, holdOk_iff h p c, contOk_iff h p c⟩

end Sys2Proof.Machine
end

section
/-!
PROOFS. The selection (43_selection.md R200 to R206): the crop, the two policies, the bounds, and KEEP made of them.
-/
namespace Sys2Proof.Machine

/-! ### Crop -/

/-- Settles O48: `take` cuts at the end, `drop` moves the begin to index 0. -/
theorem cropIsHalfOpenWindow : Obligations.CropIsHalfOpenWindow := by
  intro α xs lo hi k
  rw [crop, List.getElem?_drop, List.getElem?_take]

/-! ### Policies -/

/-- The eight hold bits of an Event, side_a's first (43_selection.md R204). -/
def holdBits (e : Event) : List (BitVec 1) :=
  [e.a.hold[0], e.a.hold[1], e.a.hold[2], e.a.hold[3], e.b.hold[0], e.b.hold[1], e.b.hold[2], e.b.hold[3]]

theorem mem_holdBits (e : Event) (b : BitVec 1) :
    b ∈ holdBits e ↔ ∃ (side : Side) (j : Fin 4), (e.side side).hold[j] = b := by
  constructor
  · intro h
    simp only [holdBits, List.mem_cons, List.not_mem_nil, or_false] at h
    rcases h with h | h | h | h | h | h | h | h
    exacts [⟨.a, 0, h.symm⟩, ⟨.a, 1, h.symm⟩, ⟨.a, 2, h.symm⟩, ⟨.a, 3, h.symm⟩,
      ⟨.b, 0, h.symm⟩, ⟨.b, 1, h.symm⟩, ⟨.b, 2, h.symm⟩, ⟨.b, 3, h.symm⟩]
  · rintro ⟨side, j, rfl⟩
    cases side <;> fin_cases j <;> simp [holdBits, Event.side]

theorem forall_mem_holdBits {p : BitVec 1 → Prop} (e : Event) :
    (∀ b ∈ holdBits e, p b) ↔ ∀ (side : Side) (j : Fin 4), p (e.side side).hold[j] := by
  simp only [mem_holdBits, forall_exists_index]
  exact ⟨fun h side j => h _ side j rfl, fun h _ side j hb => hb ▸ h side j⟩

theorem exists_mem_holdBits {p : BitVec 1 → Prop} (e : Event) :
    (∃ b ∈ holdBits e, p b) ↔ ∃ (side : Side) (j : Fin 4), p (e.side side).hold[j] := by
  simp only [mem_holdBits]
  exact ⟨fun ⟨_, ⟨side, j, hb⟩, h⟩ => ⟨side, j, hb ▸ h⟩, fun ⟨side, j, h⟩ => ⟨_, ⟨side, j, rfl⟩, h⟩⟩

/-- `require_true` is the complement of `require_false`: a bit that is not 0 is 1. -/
theorem policyKeeps_requireTrue_iff_not (bits : List (BitVec 1)) :
    PolicyKeeps .requireTrue bits ↔ ¬ PolicyKeeps .requireFalse bits := by
  have one_iff (b : BitVec 1) : b = 1 ↔ b ≠ 0 := by revert b; decide
  simp only [PolicyKeeps, one_iff, not_forall, exists_prop]

/-- Tests that answer the two policies over the same bits are opposite. -/
theorem eq_not_of_policyKeeps_iff {bits : List (BitVec 1)} {t f : Bool} (ht : t = true ↔ PolicyKeeps .requireTrue bits)
    (hf : f = true ↔ PolicyKeeps .requireFalse bits) : t = !f := by
  rw [Bool.eq_iff_iff, Bool.not_eq_true', ← Bool.not_eq_true, ht, hf, policyKeeps_requireTrue_iff_not]

theorem policyKeeps_requireFalse_pair (x y : BitVec 1) : PolicyKeeps .requireFalse [x, y] ↔ x = 0 ∧ y = 0 := by
  simp only [PolicyKeeps, List.forall_mem_cons, List.not_mem_nil, false_imp_iff, implies_true, and_true]

theorem policyKeeps_requireTrue_pair (x y : BitVec 1) : PolicyKeeps .requireTrue [x, y] ↔ x = 1 ∨ y = 1 := by
  simp only [PolicyKeeps, List.exists_mem_cons_iff, List.not_mem_nil, false_and, exists_false, or_false]

/-- R204: H(e) is 0 exactly where `require_false` keeps the hold bits. -/
theorem anyHold_eq_zero_iff (e : Event) : anyHold e = 0 ↔ PolicyKeeps .requireFalse (holdBits e) := by
  simp only [anyHold, BitVec.ofNat_eq_ofNat, BitVec.or_eq_zero_iff, PolicyKeeps, holdBits, List.forall_mem_cons,
    and_assoc, List.not_mem_nil, false_imp_iff, implies_true, and_true]

/-- R204: H(e) is 1 exactly where `require_true` keeps the hold bits. -/
theorem anyHold_eq_one_iff (e : Event) : anyHold e = 1 ↔ PolicyKeeps .requireTrue (holdBits e) := by
  rw [policyKeeps_requireTrue_iff_not, ← anyHold_eq_zero_iff]
  generalize anyHold e = h
  revert h; decide

/-- R203: DELAYED_OK is the delayed policy over the two delayed bits. -/
theorem delayedOk_iff (c : Cfg) (e : Event) :
    delayedOk c e = true ↔ PolicyKeeps c.delayed [e.a.delayed, e.b.delayed] := by
  unfold delayedOk
  cases c.delayed with
  | requireFalse => rw [policyKeeps_requireFalse_pair, Bool.and_eq_true, beq_iff_eq, beq_iff_eq]
  | requireTrue => rw [policyKeeps_requireTrue_pair, Bool.or_eq_true, beq_iff_eq, beq_iff_eq]
  | any => exact iff_of_true rfl trivial

/-- R204: FLAGGED_OK is the flagged policy over the eight hold bits. -/
theorem flaggedOk_iff (c : Cfg) (e : Event) : flaggedOk c e = true ↔ PolicyKeeps c.flagged (holdBits e) := by
  unfold flaggedOk
  cases c.flagged with
  | requireFalse => exact beq_iff_eq.trans (anyHold_eq_zero_iff e)
  | requireTrue => exact beq_iff_eq.trans (anyHold_eq_one_iff e)
  | any => exact iff_of_true rfl trivial

/-- Settles O50: each policy by its meaning over the bits, and the complements because a bit that is not 0 is 1. -/
theorem policiesAreComplements : Obligations.PoliciesAreComplements := by
  intro c e
  refine ⟨rfl, rfl, ?_, ?_, ?_, ?_, ?_, ?_⟩
  · exact (delayedOk_iff _ e).trans (policyKeeps_requireFalse_pair _ _)
  · exact (delayedOk_iff _ e).trans (policyKeeps_requireTrue_pair _ _)
  · exact (flaggedOk_iff _ e).trans (forall_mem_holdBits e)
  · exact (flaggedOk_iff _ e).trans (exists_mem_holdBits e)
  · exact eq_not_of_policyKeeps_iff (delayedOk_iff _ e) (delayedOk_iff _ e)
  · exact eq_not_of_policyKeeps_iff (flaggedOk_iff _ e) (flaggedOk_iff _ e)

/-! ### Bounds -/

/-- R6: the number of 32 bits is their two's-complement value. -/
theorem signedNumber_eq_toInt (v : BitVec 32) : signedNumber v = v.toInt := by
  rw [signedNumber, BitVec.toInt_eq_toNat_cond]
  omega

theorem quantityOf_eq_fieldNumber (x : Single) (q : Quantity) : quantityOf x q = fieldNumber x q := by
  cases q <;> rfl

/-- R205: SIDE_OK is the enabled bounds on one side's value. -/
theorem sideOk_iff (c : Cfg) (x : Single) (q : Quantity) : sideOk c x q = true ↔ BoundsKeep c q (fieldNumber x q) := by
  simp only [sideOk, BoundsKeep, quantityOf_eq_fieldNumber, signedNumber_eq_toInt, Bool.and_eq_true, Bool.or_eq_true,
    Bool.not_eq_true', decide_eq_true_eq, ← Bool.not_eq_true, imp_iff_not_or]

/-- R205: BOUND_OK asks each side by itself. -/
theorem boundOk_iff (c : Cfg) (e : Event) (q : Quantity) :
    boundOk c e q = true ↔ BoundsKeep c q (fieldNumber e.a q) ∧ BoundsKeep c q (fieldNumber e.b q) := by
  rw [boundOk, Bool.and_eq_true, sideOk_iff, sideOk_iff]

/-- Bounds that keep no value fail every Event. -/
theorem boundOk_eq_false {c : Cfg} {q : Quantity} (h : ∀ v, ¬ BoundsKeep c q v) (e : Event) : boundOk c e q = false :=
  Bool.eq_false_iff.2 fun hok => h _ ((boundOk_iff c e q).1 hok).1

/-- Disabled bounds keep every value. -/
theorem boundsKeep_of_disabled {c : Cfg} {q : Quantity} (hlo : (c.lo.get q).en = false) (hhi : (c.hi.get q).en = false)
    (v : Nat) : BoundsKeep c q v := by
  simp [BoundsKeep, hlo, hhi]

/-- Equal enabled bounds keep one value. -/
theorem boundsKeep_iff_of_equal {c : Cfg} {q : Quantity} {v : Nat} (hlo : (c.lo.get q).en = true)
    (hhi : (c.hi.get q).en = true) (hl : signedNumber (c.lo.get q).val = v) (hh : signedNumber (c.hi.get q).val = v)
    (x : Nat) : BoundsKeep c q x ↔ x = v := by
  simp only [BoundsKeep, hlo, hhi, hl, hh, forall_const]
  omega

/-- Settles O51: `boundOk_iff`, and each corner by comparing the two bounds with a value. -/
theorem boundsAreInclusivePerSide : Obligations.BoundsAreInclusivePerSide := by
  intro c e q
  refine ⟨boundOk_iff c e q, fun v hlo hhi hl hh => ?_, fun hlo hhi hlt => ?_, fun hlo hhi hneg => ?_,
    fun hhi hneg => ?_⟩
  · simp only [boundOk_iff, boundsKeep_iff_of_equal hlo hhi hl hh]
  · exact boundOk_eq_false (fun v ⟨hl, hh⟩ => absurd ((hl hlo).trans (hh hhi)) (by omega)) e
  · have keeps (v : Nat) : BoundsKeep c q v := ⟨fun _ => by omega, fun h => by simp [hhi] at h⟩
    exact (boundOk_iff c e q).2 ⟨keeps _, keeps _⟩
  · exact boundOk_eq_false (fun v ⟨_, hh⟩ => absurd (hh hhi) (by omega)) e

/-! ### KEEP -/

theorem forall_quantity {p : Quantity → Prop} :
    (∀ q, p q) ↔ p .chanA ∧ p .chanB ∧ p .chanC ∧ p .chanD ∧ p .sum :=
  ⟨fun h => ⟨h _, h _, h _, h _, h _⟩, fun ⟨ha, hb, hc, hd, hs⟩ q => by cases q <;> assumption⟩

/-- R206: KEEP is `Kept`, part by part. -/
theorem keep_iff (c : Cfg) (e : Event) : keep c e = true ↔ Kept c e := by
  simp only [keep, Bool.and_eq_true, delayedOk_iff, flaggedOk_iff, boundOk_iff, Kept, forall_quantity, and_assoc,
    holdBits]

/-- R206: the reset configuration has both policies `any` and no bound enabled. -/
theorem kept_cfgReset (e : Event) : Kept cfgReset e :=
  have keeps (q : Quantity) (v : Nat) : BoundsKeep cfgReset q v := by
    apply boundsKeep_of_disabled <;> cases q <;> rfl
  ⟨trivial, trivial, fun q => ⟨keeps q _, keeps q _⟩⟩

/-- Settles O52. -/
theorem keepIsConjunction : Obligations.KeepIsConjunction := fun c e =>
  ⟨keep_iff c e, (keep_iff cfgReset e).2 (kept_cfgReset e)⟩

end Sys2Proof.Machine
end

section
/-!
PROOFS. The commands beside PUSH (44_stream_control.md R242 to R245, R251 to R253): what NOP, RESET_RUN, END and WRCFG leave,
and the number each of RDCFG, RDSTAT and RDDIAG returns.
-/
namespace Sys2Proof.Machine

/-! ### NOP, RESET_RUN and END -/

/-- Settles O13. -/
theorem nopChangesNothing : Obligations.NopChangesNothing := fun _ _ _ => rfl

/-- R243, R331: run reset leaves every run register that has a reset value at it. -/
theorem runStart_resetRunState (s : State) : RunStart (resetRunState s) := by
  constructor <;> rfl

/-- Settles O11. -/
theorem resetRunStartsRun : Obligations.ResetRunStartsRun := fun _ _ s =>
  ⟨resetRunState s, rfl, runStart_resetRunState s, rfl, rfl, rfl, rfl, rfl⟩

/-- Settles O19: the four cases of `execEndRun_cases` are the four branches of the rule. -/
theorem endClosesRun : Obligations.EndClosesRun := by
  intro sel data s
  change execEndRun sel data s = _
  simp only [← phaseDone_eq_true]
  rcases execEndRun_cases sel data s with ⟨hd, e⟩ | ⟨hd, ⟨hc, e⟩ | ⟨hc, hp, e⟩ | ⟨hc, hp, e⟩⟩
  · rw [e, if_pos hd]; rfl
  · rw [e, if_neg (by simp [hd]), if_pos hc]; rfl
  · rw [e, if_neg (by simp [hd]), if_neg (by simp [hc]), if_pos hp]; rfl
  · rw [e, if_neg (by simp [hd]), if_neg (by simp [hc]), if_neg (by simp [hp])]

/-! ### Writing the configuration -/

theorem cfgWrite_eq_some_iff {c c' : Cfg} {sel : BitVec 8} {data : BitVec 40} :
    cfgWrite c sel data = some c' ↔ ∃ r, cfgRegOf sel = some r ∧ writeCfg c r data = some c' := by
  unfold cfgWrite
  cases cfgRegOf sel <;> simp

/-- R244, R95: the register written reads back as the DATA bits it uses. -/
theorem readCfg_writeCfg_same {c c' : Cfg} {r : CfgReg} {data : BitVec 40} (h : writeCfg c r data = some c') (b : Build) :
    readCfg b c' r = data &&& usedDataBits (cfgSelOf r) := by
  cases r with
  | delayed | flagged =>
    obtain ⟨p, hp, rfl⟩ := Option.map_eq_some_iff.1 h
    rcases policyOf_data data with ⟨-, hnone⟩ | ⟨q, -, hq, hread⟩
    · simp [hp] at hnone
    · cases hp.symm.trans hq
      exact hread
  | preBegin | preEnd | postBegin | postEnd =>
    cases h
    exact enRegData_enRegOf data
  | lo q | hi q =>
    cases h
    cases q <;> exact enRegData_enRegOf data
  | layoutId | id => cases h

/-- R244: a register that is not written reads as before. -/
theorem readCfg_writeCfg_ne {c c' : Cfg} {r r' : CfgReg} {data : BitVec 40} (h : writeCfg c r data = some c')
    (hne : r' ≠ r) (b : Build) : readCfg b c' r' = readCfg b c r' := by
  cases r with
  | delayed | flagged =>
    obtain ⟨p, -, rfl⟩ := Option.map_eq_some_iff.1 h
    cases r' <;> simp [readCfg] at hne ⊢
  | preBegin | preEnd | postBegin | postEnd =>
    cases h
    cases r' <;> simp [readCfg] at hne ⊢
  | lo q | hi q =>
    cases h
    cases r' <;> simp_all [readCfg, Bank.get_set]
  | layoutId | id => cases h

theorem cfgValue_cfgWrite_same {c c' : Cfg} {sel : BitVec 8} {data : BitVec 40} (h : cfgWrite c sel data = some c')
    (b : Build) : cfgValue b c' sel = some (data &&& usedDataBits sel) := by
  obtain ⟨r, hr, hw⟩ := cfgWrite_eq_some_iff.1 h
  rw [cfgValue, hr, Option.map_some, readCfg_writeCfg_same hw, ← cfgSelOf_of_cfgRegOf hr]

theorem cfgValue_cfgWrite_ne {c c' : Cfg} {sel other : BitVec 8} {data : BitVec 40} (h : cfgWrite c sel data = some c')
    (hne : other ≠ sel) (b : Build) : cfgValue b c' other = cfgValue b c other := by
  obtain ⟨r, hr, hw⟩ := cfgWrite_eq_some_iff.1 h
  refine Option.map_congr fun r' hr' => readCfg_writeCfg_ne hw ?_ b
  rintro rfl
  exact hne ((cfgSelOf_of_cfgRegOf hr').trans (cfgSelOf_of_cfgRegOf hr).symm)

/-- Settles O15: `execWrcfg_cases`, whose illegal case is RUN or `BadWrite`. -/
theorem wrcfgWritesOneRegister : Obligations.WrcfgWritesOneRegister := by
  intro sel data s
  rcases execWrcfg_cases sel data s with ⟨hbad, e⟩ | ⟨hrun, c, hc, e⟩
  · rw [cfgWrite_eq_none] at hbad
    exact ⟨fun hrun hgood => absurd hbad (not_or.2 ⟨hrun, hgood⟩), fun _ => e⟩
  · have hgood : ¬ BadWrite sel data := by simp [← cfgWrite_eq_none s.cfg, hc]
    exact ⟨fun _ _ => ⟨c, e, cfgValue_cfgWrite_same hc s.build, fun _ hne => cfgValue_cfgWrite_ne hc hne s.build⟩,
      fun hbad => absurd hbad (not_or.2 ⟨hrun, hgood⟩)⟩

/-! ### RDCFG -/

theorem exec_rdcfg {sel : BitVec 8} {r : CfgReg} {s : State} {v : Resp} (h : cfgRegOf sel = some r)
    (hv : readCfg s.build s.cfg r = v) (data : BitVec 40) :
    exec (.rdcfg sel data) s = .next { s with resp := some v } := by
  simp only [exec, execRdcfg, h, hv, respond]

theorem exec_rdcfg_reserved {sel : BitVec 8} (h : sel.toNat ∉ readableSelects) (data : BitVec 40) (s : State) :
    exec (.rdcfg sel data) s = .next { s with cmdErr := true, resp := some 0 } := by
  have hnone : cfgRegOf sel = none := by simpa [← cfgRegOf_isSome] using h
  simp only [exec, execRdcfg, hnone, illegal, if_true]

/-- A concatenation as a number. -/
theorem toNat_append_eq_add {m n : Nat} (x : BitVec m) (y : BitVec n) : (x ++ y).toNat = x.toNat * 2 ^ n + y.toNat := by
  rw [BitVec.toNat_append, ← Nat.shiftLeft_add_eq_or_of_lt y.isLt, Nat.shiftLeft_eq]

/-- R29: each offset of a well-formed layout fits its 4 bits. -/
theorem toNat_layoutId {l : Layout} (h : layoutOk l = true) :
    (layoutId l).toNat =
      l.offMarker + 16 * l.offFlag + 256 * l.offDelayed + 4096 * l.offChan + 65536 * l.offHold := by
  obtain ⟨⟨⟨hM, hF, hD⟩, -⟩, ⟨hC, hH⟩, -⟩ := (layoutOk_iff l).1 h
  simp only [layoutId, toNat_append_eq_add, BitVec.ofNat_eq_ofNat, BitVec.toNat_ofNat]
  omega

/-- Settles O16: `exec_rdcfg` row by row, each register's readback as a number. -/
theorem rdcfgReturnsRegister : Obligations.RdcfgReturnsRegister := by
  intro data s
  refine ⟨?_, fun h => ?_, fun sel h => exec_rdcfg_reserved h data s⟩
  · have policy {sel r p} (h : cfgRegOf sel = some r) (hr : readCfg s.build s.cfg r = policyData p) :=
      exec_rdcfg h (hr.trans (policyData_eq p)) data
    have enReg {sel r q} (h : cfgRegOf sel = some r) (hr : readCfg s.build s.cfg r = enRegData q) :=
      exec_rdcfg h (hr.trans (enRegData_eq q)) data
    simp only [List.forall_mem_cons, List.not_mem_nil, false_imp_iff, implies_true, and_true]
    exact ⟨policy rfl rfl, policy rfl rfl, enReg rfl rfl, enReg rfl rfl, enReg rfl rfl, enReg rfl rfl,
      enReg rfl rfl, enReg rfl rfl, enReg rfl rfl, enReg rfl rfl, enReg rfl rfl,
      enReg rfl rfl, enReg rfl rfl, enReg rfl rfl, enReg rfl rfl, enReg rfl rfl, exec_rdcfg (r := .id) rfl rfl data⟩
  · refine exec_rdcfg (r := .layoutId) rfl ?_ data
    rw [← toNat_layoutId h, BitVec.ofNat_toNat, BitVec.setWidth_eq]
    rfl

/-! ### RDSTAT -/

theorem exec_rdstat {sel : BitVec 8} {t : StatItem} {s : State} {v : Resp} (h : statItemOf sel = some t)
    (hv : readStat s t = v) (data : BitVec 40) : exec (.rdstat sel data) s = .next { s with resp := some v } := by
  simp only [exec, execRdstat, h, hv, respond]

theorem exec_rdstat_reserved {sel : BitVec 8} (h : 5 < sel.toNat) (data : BitVec 40) (s : State) :
    exec (.rdstat sel data) s = .next { s with cmdErr := true, resp := some 0 } := by
  simp only [exec, execRdstat, (statItemOf_eq_none sel).2 h, illegal, if_true]

theorem toNat_flagBit (b : Bool) : (flagBit b).toNat = bitNumber b := by cases b <;> rfl

theorem toNat_phaseCode (p : Phase) : (phaseCode p).toNat = phaseNumber p := by cases p <;> rfl

/-- R70: the status word as a number. -/
theorem toNat_statusWord (s : State) :
    (statusWord s).toNat = phaseNumber s.phase + 4 * bitNumber s.errWordcount + 8 * bitNumber s.errOdd +
      16 * bitNumber s.cmdErr + 32 * s.frameCnt.toNat + 256 * bitNumber s.pendValid := by
  simp only [statusWord, toNat_append_eq_add, toNat_flagBit, toNat_phaseCode, BitVec.ofNat_eq_ofNat,
    BitVec.toNat_ofNat]
  omega

/-- Settles O17: the status word by `toNat_statusWord`; a counter is its own number, widened. -/
theorem rdstatReturnsStatus : Obligations.RdstatReturnsStatus := by
  intro data s
  refine ⟨?_, fun sel h => exec_rdstat_reserved h data s⟩
  have counter {sel t} {w : Nat} {v : BitVec w} (h : statItemOf sel = some t) (hr : readStat s t = v.setWidth 40) :=
    exec_rdstat h (hr.trans (BitVec.ofNat_toNat 40 v).symm) data
  simp only [List.forall_mem_cons, List.not_mem_nil, false_imp_iff, implies_true, and_true]
  refine ⟨?_, counter rfl rfl, counter rfl rfl, counter rfl rfl, counter rfl rfl, counter rfl rfl⟩
  rw [← toNat_statusWord]
  refine exec_rdstat (t := .status) rfl ?_ data
  rw [BitVec.ofNat_toNat, BitVec.setWidth_eq]
  rfl

/-! ### RDDIAG -/

theorem exec_rddiag {sel : BitVec 8} {c : Check} {t : DiagItem} (h : diagSelOf sel = some (c, t)) (data : BitVec 40)
    (s : State) : exec (.rddiag sel data) s = .next { s with resp := some (readDiag (s.diag c) t) } := by
  simp only [exec, execRddiag, h, respond]

theorem exec_rddiag_reserved {sel : BitVec 8}
    (h : 3 ≤ sel.toNat / 64 ∨ sel.toNat / 8 % 8 ≠ 0 ∨ sel.toNat % 8 = 5 ∨ sel.toNat % 8 = 6) (data : BitVec 40)
    (s : State) : exec (.rddiag sel data) s = .next { s with cmdErr := true, resp := some 0 } := by
  simp only [exec, execRddiag, (diagSelOf_eq_none sel).2 h, illegal, if_true]

theorem readDiag_count (d : Diag) : readDiag d .count = BitVec.ofNat 40 d.cnt.toNat := (BitVec.ofNat_toNat 40 d.cnt).symm

/-- R252: a valid sample is its position with bit 39 set. -/
theorem readDiag_sample (d : Diag) (j : Fin 5) : readDiag d (.sample j) =
    if j.val < d.cnt.toNat then BitVec.ofNat 40 (2 ^ 39 + d.sample[j].toNat) else 0 := by
  have tagged : (8 : BitVec 4) ++ d.sample[j] = BitVec.ofNat 40 (2 ^ 39 + d.sample[j].toNat) := by
    apply BitVec.eq_of_toNat_eq
    simp only [toNat_append_eq_add, BitVec.ofNat_eq_ofNat, BitVec.toNat_ofNat]
    omega
  rw [readDiag, tagged]

/-- Settles O18: the select of each row names its check and item. -/
theorem rddiagReturnsDiagnostics : Obligations.RddiagReturnsDiagnostics := by
  intro data s
  refine ⟨?_, fun sel h => exec_rddiag_reserved h data s⟩
  simp only [← readDiag_count, ← readDiag_sample, List.forall_mem_cons, List.not_mem_nil, false_imp_iff, implies_true,
    and_true]
  exact ⟨⟨exec_rddiag (c := .sig) rfl data s, fun j => exec_rddiag (c := .sig) (by revert j; decide) data s⟩,
    ⟨exec_rddiag (c := .pair) rfl data s, fun j => exec_rddiag (c := .pair) (by revert j; decide) data s⟩,
    ⟨exec_rddiag (c := .cont) rfl data s, fun j => exec_rddiag (c := .cont) (by revert j; decide) data s⟩⟩

end Sys2Proof.Machine
end

section
/-!
PROOFS. The hazards of a run (70_reset_and_hazards.md R334): which instructions can change the configuration, and when.
-/
namespace Sys2Proof.Machine

/-! ### The frame of the configuration -/

theorem pushWord_next_cfg {w : Word} {s t : State} (h : pushWord w s = .next t) : t.cfg = s.cfg := by
  rcases pushWord_next h with
    ⟨_, rfl⟩ | ⟨_, _, ⟨_, rfl⟩ | ⟨_, ⟨_, rfl⟩ | ⟨_, _, rfl⟩ | ⟨_, _, _, rfl⟩⟩⟩ <;> rfl

/-- An instruction that goes on keeps the configuration, or it is a WRCFG outside a run. -/
theorem exec_next_cfg {i : Instr} {s t : State} (h : exec i s = .next t) :
    t.cfg = s.cfg ∨ (i.isWrcfg = true ∧ s.phase ≠ .run) := by
  cases hw : i.pushedWord with
  | some w => exact .inl (pushWord_next_cfg ((exec_of_pushedWord s hw).symm.trans h))
  | none =>
    rcases exec_next_of_no_word hw h with ⟨_, rfl⟩ | ⟨_, rfl⟩ | ⟨_, _, _, rfl⟩ | ⟨_, _, _, rfl, hrun, _, _⟩ |
      ⟨_, ⟨_, rfl⟩ | ⟨_, _, rfl⟩ | ⟨_, _, rfl⟩⟩
    case inr.inr.inr.inl => exact .inr ⟨rfl, hrun⟩
    all_goals exact .inl rfl

/-- Settles O31: the illegal write is a case of WRCFG's rule, and `exec_next_cfg` gives both parts of the frame. -/
theorem configurationIsFrozenInRun : Obligations.ConfigurationIsFrozenInRun := by
  refine ⟨fun sel data s hrun => (wrcfgWritesOneRegister sel data s).2 (.inl hrun), fun i s t h => ?_⟩
  rcases exec_next_cfg h with same | ⟨hwrcfg, hnot⟩
  · exact ⟨fun _ => same, fun changed => absurd same changed⟩
  · exact ⟨fun hrun => absurd hrun hnot, fun _ => hwrcfg⟩

end Sys2Proof.Machine
end

section
/-!
PROOFS. The port words (30_encoding.md R85, R88, R89, R96): decode and encode are inverse, which words are rejected, and what
a step does with each kind of word.
-/
namespace Sys2Proof.Machine

/-! ### Decoding what was encoded -/

@[simp] theorem cmdOpc_commandWord (opc sel rsv : BitVec 8) (data : BitVec 40) :
    cmdOpc (commandWord opc sel rsv data) = opc := (fields_commandWord opc sel rsv data).1

@[simp] theorem cmdSel_commandWord (opc sel rsv : BitVec 8) (data : BitVec 40) :
    cmdSel (commandWord opc sel rsv data) = sel := (fields_commandWord opc sel rsv data).2.1

@[simp] theorem cmdRsv_commandWord (opc sel rsv : BitVec 8) (data : BitVec 40) :
    cmdRsv (commandWord opc sel rsv data) = rsv := (fields_commandWord opc sel rsv data).2.2.1

@[simp] theorem cmdData_commandWord (opc sel rsv : BitVec 8) (data : BitVec 40) :
    cmdData (commandWord opc sel rsv data) = data := (fields_commandWord opc sel rsv data).2.2.2

@[simp] theorem wordCheck_frameWord (c : BitVec 3) (p : BitVec 13) : wordCheck (frameWord c p) = c :=
  (fields_frameWord c p).1

@[simp] theorem wordPayload_frameWord (c : BitVec 3) (p : BitVec 13) : wordPayload (frameWord c p) = p :=
  (fields_frameWord c p).2

/-- The command of an opcode below 0x08 (30_encoding.md R89). -/
def commandOf (n : Nat) (sel : BitVec 8) (data : BitVec 40) : Instr :=
  match n with
  | 0 => .nop sel data
  | 1 => .resetRun sel data
  | 2 => .wrcfg sel data
  | 3 => .rdcfg sel data
  | 4 => .push sel data
  | 5 => .endRun sel data
  | 6 => .rddiag sel data
  | _ => .rdstat sel data

/-- R241, first part: the three ways a command word is decoded. -/
theorem decodeCommand_eq (w : CmdWord) : decodeCommand w =
    if 8 ≤ (cmdOpc w).toNat then .ok (.reservedOpc (cmdOpc w) (cmdSel w) (cmdRsv w) (cmdData w))
    else if cmdRsv w ≠ 0 then .error (.rsvNonzero (cmdOpc w))
    else .ok (commandOf (cmdOpc w).toNat (cmdSel w) (cmdData w)) := by
  unfold decodeCommand commandOf
  split
  · rfl
  · split
    · rfl
    · generalize (cmdOpc w).toNat = n
      match n with
      | 0 | 1 | 2 | 3 | 4 | 5 | 6 | _ + 7 => rfl

/-- A command below 0x08 is read back from its word. -/
theorem decode_commandWord {opc : BitVec 8} (h : opc.toNat < 8) (sel : BitVec 8) (data : BitVec 40) :
    decode (.command (commandWord opc sel 0 data)) = .ok (commandOf opc.toNat sel data) := by
  simp [decode, decodeCommand_eq, h]

/-- A reserved opcode is read back from its word, whatever its RSV. -/
theorem decode_reservedWord {opc : BitVec 8} (h : 8 ≤ opc.toNat) (sel rsv : BitVec 8) (data : BitVec 40) :
    decode (.command (commandWord opc sel rsv data)) = .ok (.reservedOpc opc sel rsv data) := by
  simp [decode, decodeCommand_eq, h]

/-- The class of a check value (30_encoding.md R85). -/
def classOf (c : BitVec 3) (p : BitVec 13) : Instr :=
  match c.toNat with
  | 0 => .fwCha p
  | 1 => .fwChb p
  | 2 => .fwChc p
  | 3 => .fwChd p
  | 4 => .fwHdr p
  | 5 => .fwDummy p
  | 6 => .fwRsv6 p
  | _ => .fwRsv7 p

theorem decodeFrameWord_eq (w : Word) : decodeFrameWord w = classOf (wordCheck w) (wordPayload w) := rfl

/-- A frame word is read back by its check value. -/
theorem decode_frameWord (c : BitVec 3) (p : BitVec 13) : decode (.frame (frameWord c p)) = .ok (classOf c p) := by
  rw [decode, decodeFrameWord_eq, wordCheck_frameWord, wordPayload_frameWord]

/-- Settles O1: each row is read back by its opcode or by its check value. -/
theorem decodeOfEncodeIsIdentity : Obligations.DecodeOfEncodeIsIdentity := by
  intro i h
  cases i with
  | reservedOpc opc sel rsv data => exact decode_reservedWord (of_decide_eq_true h) sel rsv data
  | nop sel data | resetRun sel data | wrcfg sel data | rdcfg sel data
  | push sel data | endRun sel data | rddiag sel data | rdstat sel data =>
    exact decode_commandWord (by decide) sel data
  | fwHdr p | fwCha p | fwChb p | fwChc p | fwChd p | fwDummy p | fwRsv6 p | fwRsv7 p => exact decode_frameWord _ p

/-! ### Encoding what was decoded -/

theorem encode_commandOf {opc : BitVec 8} (h : opc.toNat < 8) (sel : BitVec 8) (data : BitVec 40) :
    encode (commandOf opc.toNat sel data) = .command (commandWord opc sel 0 data) ∧
      (commandOf opc.toNat sel data).WellFormed := by
  obtain ⟨n, hn, rfl⟩ : ∃ n, n < 8 ∧ opc = BitVec.ofNat 8 n := ⟨opc.toNat, h, by simp⟩
  interval_cases n <;> exact ⟨rfl, rfl⟩

theorem encode_classOf (c : BitVec 3) (p : BitVec 13) :
    encode (classOf c p) = .frame (frameWord c p) ∧ (classOf c p).WellFormed := by
  obtain ⟨n, hn, rfl⟩ : ∃ n, n < 8 ∧ c = BitVec.ofNat 3 n := ⟨c.toNat, c.isLt, by simp⟩
  interval_cases n <;> exact ⟨rfl, rfl⟩

/-- Settles O2: no field of the word is lost, and RSV is 0 where the instruction keeps none. -/
theorem encodeOfDecodeIsIdentity : Obligations.EncodeOfDecodeIsIdentity := by
  intro p i h
  cases p with
  | frame w =>
    cases h
    have hw := encode_classOf (wordCheck w) (wordPayload w)
    rwa [frameWord_fields, ← decodeFrameWord_eq] at hw
  | command w =>
    rw [decode, decodeCommand_eq] at h
    split at h
    next h8 =>
      cases h
      exact ⟨by rw [encode, commandWord_fields], decide_eq_true h8⟩
    next h8 =>
      split at h
      · cases h
      next hrsv =>
        cases h
        have hw := commandWord_fields w
        rw [not_not.1 hrsv] at hw
        rw [← hw, cmdOpc_commandWord, cmdSel_commandWord, cmdData_commandWord]
        exact encode_commandOf (not_le.1 h8) _ _

/-! ### The words the decoder rejects -/

theorem decodeCommand_eq_error_iff (w : CmdWord) (err : DecodeError) :
    decodeCommand w = .error err ↔ (cmdOpc w).toNat < 8 ∧ cmdRsv w ≠ 0 ∧ err = .rsvNonzero (cmdOpc w) := by
  rw [decodeCommand_eq]
  split
  · simp; omega
  · split
    · simp_all [eq_comm]
    · simp_all

/-- R90 (b) in numbers: OPC below 0x08 and RSV not 0. -/
theorem decode_command_eq_error_iff (w : CmdWord) (err : DecodeError) :
    decode (.command w) = .error err ↔ w.toNat / 2 ^ 56 < 8 ∧ w.toNat / 2 ^ 40 % 256 ≠ 0 ∧
      err = .rsvNonzero (BitVec.ofNat 8 (w.toNat / 2 ^ 56)) := by
  have hrsv : cmdRsv w ≠ 0 ↔ w.toNat / 2 ^ 40 % 256 ≠ 0 := by rw [← toNat_cmdRsv, ne_eq, BitVec.toNat_eq]; rfl
  rw [decode, decodeCommand_eq_error_iff, hrsv, ← toNat_cmdOpc, BitVec.ofNat_toNat, BitVec.setWidth_eq]

/-- Settles O3: a frame word always decodes. -/
theorem decoderRejectsOnlyReservedBits : Obligations.DecoderRejectsOnlyReservedBits := by
  intro p err
  cases p with
  | command w => simpa using decode_command_eq_error_iff w err
  | frame w => simp [decode]

/-- Settles O4. -/
theorem specWordsDecodeAsWritten : Obligations.SpecWordsDecodeAsWritten := by
  unfold Obligations.SpecWordsDecodeAsWritten
  decide

/-- Settles O5: fields that share no bit are added or put together alike. -/
theorem commandWordIsShiftedFields : Obligations.CommandWordIsShiftedFields := by
  intro opc sel data
  have hsel : sel.toNat <<< 48 < 2 ^ 56 := by rw [Nat.shiftLeft_eq]; omega
  have hdata : data.toNat < 2 ^ 48 := by omega
  rw [toNat_commandWord, Nat.or_assoc, ← Nat.shiftLeft_add_eq_or_of_lt hdata,
    ← Nat.shiftLeft_add_eq_or_of_lt (by rw [Nat.shiftLeft_eq]; omega)]
  simp only [Nat.shiftLeft_eq, BitVec.ofNat_eq_ofNat, BitVec.toNat_ofNat]
  omega

/-! ### The step on a word -/

/-- Settles O6. -/
theorem stepRunsDecodedInstruction : Obligations.StepRunsDecodedInstruction := fun _ _ _ _ => step_word_ok

/-- Settles O8. -/
theorem blockWaitsWithoutCommand : Obligations.BlockWaitsWithoutCommand := by
  intro s h
  simp [step, takeItem, h]

/-- R89: the opcodes that read, as numbers. -/
theorem opcReads_ofNat {n : Nat} (h : n < 8) : opcReads (BitVec.ofNat 8 n) = true ↔ n = 3 ∨ n = 6 ∨ n = 7 := by
  interval_cases n <;> decide

/-- Settles O7: the decoder names such a word's opcode, and the step makes it an illegal command. -/
theorem nonzeroReservedBitsSetCmdErr : Obligations.NonzeroReservedBitsSetCmdErr := by
  intro s w rest hin hopc hrsv
  rw [step_word_error hin ((decode_command_eq_error_iff w _).2 ⟨hopc, hrsv, rfl⟩)]
  simp only [execRejected, illegal, opcReads_ofNat hopc]

end Sys2Proof.Machine
end

section
/-!
PROOFS. The invariants (10_state.md R30 to R42, 40_frame_codec.md R120, 44_stream_control.md R263): they hold at reset, and every
effect of a step keeps them.
-/
namespace Sys2Proof.Machine

/-! ### What a step is made of -/

/-- R251: the ways END closes a run. -/
def Closes (s t : State) : Prop :=
  (s.frameCnt ≠ 0 ∧ t = raiseMalformed .wordcount s) ∨
  (s.frameCnt = 0 ∧ s.pendValid = true ∧ t = raiseMalformed .odd s) ∨
  (s.frameCnt = 0 ∧ s.pendValid = false ∧ t = { s with phase := .doneOk, resp := none })

/-- A property that does not read the configuration, CMD_ERR, the response and the input, and that run reset, END and the push
of a word keep, every step keeps. -/
theorem step_keeps {P : State → Prop}
    (hframe : ∀ s cfg cmdErr resp input, P s →
      P { s with cfg := cfg, cmdErr := cmdErr, resp := resp, input := input })
    (hreset : ∀ s, P s → P (resetRunState s))
    (hend : ∀ s t, P s → phaseDone s.phase = false → Closes s t → P t)
    (hpush : ∀ w s t, P s → pushWord w s = .next t → P t) {s t : State} (hs : P s) (h : step s = .next t) : P t := by
  have hinput (rest : List HostItem) : P { s with input := rest } := hframe s s.cfg s.cmdErr s.resp rest hs
  rcases step_next h with ⟨-, rfl⟩ | ⟨rest, -, rfl⟩ | ⟨p, rest, err, b, -, -, rfl⟩ | ⟨p, rest, i, -, -, hi⟩
  · exact hs
  · exact hframe _ cfgReset false none rest (hreset _ (hinput rest))
  · exact hframe s s.cfg true _ rest hs
  · replace hs := hinput rest
    generalize ({ s with input := rest } : State) = u at hs hi
    cases hw : i.pushedWord with
    | some w => exact hpush w u t hs ((exec_of_pushedWord u hw).symm.trans hi)
    | none =>
      rcases exec_next_of_no_word hw hi with
        ⟨b, rfl⟩ | ⟨r, rfl⟩ | ⟨_, _, -, rfl⟩ | ⟨_, _, c, -, -, -, rfl⟩ | ⟨hd, hclose⟩
      · exact hframe u u.cfg true _ u.input hs
      · exact hframe u u.cfg u.cmdErr r u.input hs
      · exact hreset u hs
      · exact hframe u c u.cmdErr none u.input hs
      · exact hend u t hs hd hclose

/-- Settles O32. -/
theorem buildNeverChanges : Obligations.BuildNeverChanges := by
  intro s t h
  refine step_keeps (P := fun u => u.build = s.build) (fun _ _ _ _ _ hu => hu) (fun _ hu => hu) ?_ ?_ rfl h
  · rintro u _ hu - (⟨-, rfl⟩ | ⟨-, -, rfl⟩ | ⟨-, -, rfl⟩) <;> exact hu
  · intro w u v hu hv
    rcases pushWord_next hv with
      ⟨-, rfl⟩ | ⟨-, -, ⟨-, rfl⟩ | ⟨-, ⟨-, rfl⟩ | ⟨-, -, rfl⟩ | ⟨-, -, -, rfl⟩⟩⟩ <;> exact hu

/-! ### Records -/

/-- The record invariant reads the records and their valid bits alone. -/
theorem RecordInv.of_fields {s t : State} (h : RecordInv s) (hpend : t.pendA = s.pendA)
    (hpendValid : t.pendValid = s.pendValid) (hprev : t.prev = s.prev) (hprevValid : t.prevValid = s.prevValid)
    (hout : t.out = s.out) : RecordInv t := by
  obtain ⟨pend, prev, out⟩ := h
  constructor
  · rwa [hpend, hpendValid]
  · rwa [hprev, hprevValid]
  · rwa [hout]

theorem recordInv_resetRunState (s : State) : RecordInv (resetRunState s) := by
  constructor <;> simp

theorem mem_ite_append {b : Bool} {es : List Event} {e x : Event} :
    x ∈ (if b then es ++ [e] else es) → x ∈ es ∨ x = e := by
  cases b <;> simp +contextual

/-- R120, R144: a completed Event is exact where the pending Single was. -/
theorem eventOk_eventAfter {w : Word} {s : State} (h : RecordInv s) (hp : s.pendValid = true) :
    EventOk (eventAfter w s) := ⟨h.pend hp, sumOk_decode5 _ _, rfl⟩

theorem recordInv_pushWord {w : Word} {s t : State} (h : RecordInv s) (hst : pushWord w s = .next t) : RecordInv t := by
  rcases pushWord_next hst with
    ⟨-, rfl⟩ | ⟨-, -, ⟨-, rfl⟩ | ⟨-, ⟨-, rfl⟩ | ⟨-, -, rfl⟩ | ⟨-, hp, -, rfl⟩⟩⟩
  · exact h.of_fields rfl rfl rfl rfl rfl
  · exact h.of_fields rfl rfl rfl rfl rfl
  · exact h.of_fields rfl rfl rfl rfl rfl
  · exact ⟨fun _ => sumOk_decode5 _ _, h.prev, h.out⟩
  · refine ⟨fun hfalse => Bool.noConfusion hfalse, fun _ => eventOk_eventAfter h hp, fun e he => ?_⟩
    rcases mem_ite_append he with hold | rfl
    · exact h.out e hold
    · exact eventOk_eventAfter h hp

/-- Settles O56: a record becomes readable only where a decoded frame or an Event made of two is stored. -/
theorem stepKeepsRecordsExact : Obligations.StepKeepsRecordsExact := by
  intro s t hs h
  refine step_keeps (fun _ _ _ _ _ hu => hu.of_fields rfl rfl rfl rfl rfl) (fun u _ => recordInv_resetRunState u) ?_
    (fun _ _ _ => recordInv_pushWord) hs h
  rintro u _ hu - (⟨-, rfl⟩ | ⟨-, -, rfl⟩ | ⟨-, -, rfl⟩) <;> exact hu.of_fields rfl rfl rfl rfl rfl

/-! ### Diagnostics -/

theorem toNat_cnt_recordIn {d : Diag} (p : BitVec 36) (h : d.cnt.toNat + 1 < 2 ^ 36) :
    (recordIn d p).cnt.toNat = d.cnt.toNat + 1 := by
  show (d.cnt + 1).toNat = _
  bv_omega

/-- R250: one more violation, at a place not below any before it. -/
theorem DiagInv.recordIn {d : Diag} {b p : Nat} (h : DiagInv d b) (hp : b ≤ p) (hlt : p + 1 < 2 ^ 36) :
    DiagInv (recordIn d (BitVec.ofNat 36 p)) (p + 1) := by
  obtain ⟨hcount, hbelow, hrising⟩ := h
  have hcnt := toNat_cnt_recordIn (d := d) (BitVec.ofNat 36 p) (by omega)
  have hpos : (BitVec.ofNat 36 p).toNat = p := Nat.mod_eq_of_lt (by omega)
  refine ⟨by omega, fun j hj => ?_, fun j k hjk hk => ?_⟩
  · rw [hcnt] at hj
    rw [recordIn_sample d _ j hj]
    split
    · omega
    · have := hbelow j (by omega)
      omega
  · rw [hcnt] at hk
    have hlt : j.val < k.val := hjk
    rw [recordIn_sample d _ k hk, recordIn_sample d _ j (by omega), if_neg (by omega)]
    split
    · have := hbelow j (by omega)
      omega
    · exact hrising j k hjk (by omega)

/-- R250: a list of violations at rising places. -/
theorem DiagInv.recordList {ps : List Nat} : ∀ {d : Diag} {b top : Nat}, DiagInv d b → b ≤ top → top < 2 ^ 36 →
    ps.Pairwise (· < ·) → (∀ p ∈ ps, b ≤ p ∧ p < top) → DiagInv (recordList d ps) top := by
  induction ps with
  | nil => exact fun h hb _ _ _ => h.mono hb
  | cons p ps ih =>
    intro d b top h hb htop hrise hmem
    obtain ⟨hp, hps⟩ := List.pairwise_cons.1 hrise
    obtain ⟨hbp, hpt⟩ := hmem p List.mem_cons_self
    exact ih (h.recordIn hbp (by omega)) hpt htop hps fun q hq =>
      ⟨hp q hq, (hmem q (List.mem_cons_of_mem p hq)).2⟩

theorem length_sigchkSingle_le (x : Single) (base : Nat) : (sigchkSingle x base).length ≤ 5 := by
  unfold sigchkSingle
  rw [List.length_map]
  exact List.length_filter_le _ _

/-- R162, R248: the framing violations of a Single, recorded. -/
theorem diagInv_sigDiag {x : Single} {s : State} (h : DiagInv s.diagSig (5 * s.singleIdx.toNat))
    (hlt : 5 * s.singleIdx.toNat + 5 < 2 ^ 36) : DiagInv (sigDiag x s) (5 * s.singleIdx.toNat + 5) := by
  obtain ⟨hrise, hmem⟩ := sigchkSingle_mem x (5 * s.singleIdx.toNat)
  exact h.recordList (by omega) hlt hrise hmem

/-- An Event's place, recorded or not. -/
theorem diagInv_recordEvent {d : Diag} {n : Nat} {pos : BitVec 32} (bad : Bool) (h : DiagInv d n) (hpos : pos.toNat = n) :
    DiagInv (if bad then recordIn d (pos.setWidth 36) else d) (n + 1) := by
  cases bad with
  | false => exact h.mono (by omega)
  | true =>
    have := h.recordIn (le_refl n) (by omega)
    rwa [← hpos, BitVec.ofNat_toNat, hpos] at this

/-! ### Counters, positions and phases -/

theorem toNat_rawIdx_succ {s : State} (h : s.rawIdx.toNat ≠ nRawMax) : (s.rawIdx + 1).toNat = s.rawIdx.toNat + 1 := by
  have : nRawMax = 2 ^ 36 - 1 := rfl
  bv_omega

theorem counterInv_afterOutside {s : State} (h : CounterInv s) (hr : s.rawIdx.toNat ≠ nRawMax) :
    CounterInv (afterOutside s) := by
  obtain ⟨frame, singles, events, kept, emitted, outLength, words, prevValid⟩ := h
  refine ⟨frame, singles, events, kept, emitted, outLength, ?_, prevValid⟩
  show 5 * s.singleIdx.toNat + s.frameCnt.toNat ≤ (s.rawIdx + 1).toNat
  rw [toNat_rawIdx_succ hr]
  omega

theorem counterInv_afterStored {w : Word} {s : State} (h : CounterInv s) (hr : s.rawIdx.toNat ≠ nRawMax)
    (hc : s.frameCnt.toNat < 4) : CounterInv (afterStored w s) := by
  obtain ⟨frame, singles, events, kept, emitted, outLength, words, prevValid⟩ := h
  have hframe : (s.frameCnt + 1).toNat = s.frameCnt.toNat + 1 := by bv_omega
  refine ⟨?_, singles, events, kept, emitted, outLength, ?_, prevValid⟩
  · show (s.frameCnt + 1).toNat ≤ 4
    omega
  · show 5 * s.singleIdx.toNat + (s.frameCnt + 1).toNat ≤ (s.rawIdx + 1).toNat
    rw [toNat_rawIdx_succ hr]
    omega

/-- One more Single fits SINGLE_IDX. -/
theorem CounterInv.toNat_singleIdx_succ {s : State} (h : CounterInv s) :
    (s.singleIdx + 1).toNat = s.singleIdx.toNat + 1 := by
  have : nEvtMax = 2 ^ 32 := rfl
  have := h.singles
  have := h.events
  split at * <;> bv_omega

theorem counterInv_afterSideA {w : Word} {s : State} (h : CounterInv s) (hr : s.rawIdx.toNat ≠ nRawMax)
    (hc : ¬ s.frameCnt.toNat < 4) (hp : s.pendValid = false) : CounterInv (afterSideA w s) := by
  have hsingle := h.toNat_singleIdx_succ
  obtain ⟨frame, singles, events, kept, emitted, outLength, words, prevValid⟩ := h
  simp only [hp] at singles
  refine ⟨Nat.zero_le _, ?_, events, kept, emitted, outLength, ?_, prevValid⟩
  · show (s.singleIdx + 1).toNat = 2 * s.evtIdx.toNat + 1
    simpa [singles] using hsingle
  · show 5 * (s.singleIdx + 1).toNat + 0 ≤ (s.rawIdx + 1).toNat
    rw [toNat_rawIdx_succ hr]
    omega

theorem toNat_evtIdx_succ {s : State} (h : CounterInv s) (he : s.evtIdx.toNat ≠ nEvtMax) :
    (s.evtIdx + 1).toNat = s.evtIdx.toNat + 1 := by
  have : nEvtMax = 2 ^ 32 := rfl
  have := lt_of_le_of_ne h.events he
  bv_omega

theorem toNat_keptIdx_succ {s : State} (h : CounterInv s) (he : s.evtIdx.toNat ≠ nEvtMax) :
    (s.keptIdx + 1).toNat = s.keptIdx.toNat + 1 := by
  have : nEvtMax = 2 ^ 32 := rfl
  have := lt_of_le_of_ne h.events he
  have := h.kept
  bv_omega

theorem counterInv_afterEvent {w : Word} {s : State} (h : CounterInv s) (hr : s.rawIdx.toNat ≠ nRawMax)
    (hc : ¬ s.frameCnt.toNat < 4) (hp : s.pendValid = true) (he : s.evtIdx.toNat ≠ nEvtMax) :
    CounterInv (afterEvent w s) := by
  have hsingle := h.toNat_singleIdx_succ
  have hevt := toNat_evtIdx_succ h he
  have hkept := toNat_keptIdx_succ h he
  have hmax : nEvtMax = 2 ^ 32 := rfl
  obtain ⟨frame, singles, events, kept, emitted, outLength, words, prevValid⟩ := h
  simp only [hp] at singles
  have hemit : (s.emitCnt + 1).toNat = s.emitCnt.toNat + 1 := by bv_omega
  refine ⟨Nat.zero_le _, ?_, ?_, ?_, ?_, ?_, ?_, ?_⟩
  · show (s.singleIdx + 1).toNat = 2 * (s.evtIdx + 1).toNat + 0
    rw [hsingle, hevt, singles, if_pos trivial]
    ring
  · show (s.evtIdx + 1).toNat ≤ nEvtMax
    omega
  · show (if keep s.cfg (eventAfter w s) then s.keptIdx + 1 else s.keptIdx).toNat ≤ (s.evtIdx + 1).toNat
    split <;> omega
  · show (if emits (eventAfter w s) s then s.emitCnt + 1 else s.emitCnt).toNat ≤
      (if keep s.cfg (eventAfter w s) then s.keptIdx + 1 else s.keptIdx).toNat
    unfold emits
    cases keep s.cfg (eventAfter w s) <;> cases inPost s.cfg s.keptIdx.toNat <;> simp <;> omega
  · show (if emits (eventAfter w s) s then s.out ++ [eventAfter w s] else s.out).length =
      (if emits (eventAfter w s) s then s.emitCnt + 1 else s.emitCnt).toNat
    split
    · rw [List.length_append, List.length_singleton, outLength, hemit]
    · exact outLength
  · show 5 * (s.singleIdx + 1).toNat + 0 ≤ (s.rawIdx + 1).toNat
    rw [toNat_rawIdx_succ hr]
    omega
  · show true = true ↔ (s.evtIdx + 1).toNat ≠ 0
    exact iff_of_true rfl (by omega)

/-- R141: the position of the Event about to be formed is its number. -/
theorem toNat_position_eventAfter {w : Word} {s : State} (h : CounterInv s) (he : s.evtIdx.toNat ≠ nEvtMax) :
    (eventAfter w s).position.toNat = s.evtIdx.toNat := by
  have hmax : nEvtMax = 2 ^ 32 := rfl
  have hle := h.events
  show (s.evtIdx.setWidth 32).toNat = _
  rw [BitVec.toNat_setWidth, Nat.mod_eq_of_lt (by omega)]

/-- R162: the signature check of the next Single stays below the word count. -/
theorem diagInv_sig_of_complete {x : Single} {s : State} (hcount : CounterInv s) (h : PositionInv s)
    (hr : s.rawIdx.toNat ≠ nRawMax) (hc : ¬ s.frameCnt.toNat < 4) :
    DiagInv (sigDiag x s) (5 * (s.singleIdx + 1).toNat) := by
  have hraw := toNat_rawIdx_succ hr
  have hwords := hcount.words
  rw [hcount.toNat_singleIdx_succ]
  exact diagInv_sigDiag h.sig (by omega)

theorem positionInv_afterSideA {w : Word} {s : State} (hcount : CounterInv s) (h : PositionInv s)
    (hr : s.rawIdx.toNat ≠ nRawMax) (hc : ¬ s.frameCnt.toNat < 4) : PositionInv (afterSideA w s) :=
  ⟨h.prev, h.outBelow, h.outRising, diagInv_sig_of_complete hcount h hr hc, h.pair, h.cont⟩

theorem positionInv_afterEvent {w : Word} {s : State} (hcount : CounterInv s) (h : PositionInv s)
    (hr : s.rawIdx.toNat ≠ nRawMax) (hc : ¬ s.frameCnt.toNat < 4) (he : s.evtIdx.toNat ≠ nEvtMax) :
    PositionInv (afterEvent w s) := by
  have hpos := toNat_position_eventAfter (w := w) hcount he
  have hevt := toNat_evtIdx_succ hcount he
  refine ⟨fun _ => ?_, fun e hmem => ?_, ?_, diagInv_sig_of_complete hcount h hr hc, ?_, ?_⟩
  · show (eventAfter w s).position.toNat + 1 = (s.evtIdx + 1).toNat
    omega
  · show e.position.toNat < (s.evtIdx + 1).toNat
    rcases mem_ite_append hmem with hold | rfl
    · have := h.outBelow e hold
      omega
    · omega
  · show (if emits (eventAfter w s) s then s.out ++ [eventAfter w s] else s.out).Pairwise _
    split
    · refine List.pairwise_append.2 ⟨h.outRising, List.pairwise_singleton _ _, fun e hmem f hf => ?_⟩
      rw [List.mem_singleton.1 hf, hpos]
      exact h.outBelow e hmem
    · exact h.outRising
  · show DiagInv (pairDiag (eventAfter w s) s) (s.evtIdx + 1).toNat
    rw [hevt]
    exact diagInv_recordEvent _ h.pair hpos
  · show DiagInv (contDiag (eventAfter w s) s) (s.evtIdx + 1).toNat
    rw [hevt]
    exact diagInv_recordEvent _ h.cont hpos

/-- R30, R41: before END no error bit is set. -/
theorem PhaseInv.no_error {s : State} (h : PhaseInv s) (hd : phaseDone s.phase = false) :
    s.errWordcount = false ∧ s.errOdd = false := by
  have hne : s.phase ≠ .doneErr := fun he => by simp [he, phaseDone] at hd
  simpa using h.errIff.not.1 hne

/-- R30: in RUN with no error bit. -/
theorem phaseInv_of_run {s : State} (hrun : s.phase = .run) (hw : s.errWordcount = false) (ho : s.errOdd = false) :
    PhaseInv s := by
  constructor <;> simp [hrun, hw, ho]

/-! ### The run invariant -/

/-- The run invariant does not read the configuration, CMD_ERR, the response and the input. -/
theorem RunInv.of_frame {s : State} (h : RunInv s) (cfg : Cfg) (cmdErr : Bool) (resp : Option Resp)
    (input : List HostItem) : RunInv { s with cfg := cfg, cmdErr := cmdErr, resp := resp, input := input } := by
  obtain ⟨⟨frame, singles, events, kept, emitted, outLength, words, prevValid⟩,
    ⟨prev, outBelow, outRising, sig, pair, cont⟩, ⟨idle, errIff, notBoth, wordcount, odd, doneOk⟩⟩ := h
  exact ⟨⟨frame, singles, events, kept, emitted, outLength, words, prevValid⟩,
    ⟨prev, outBelow, outRising, sig, pair, cont⟩, ⟨idle, errIff, notBoth, wordcount, odd, doneOk⟩⟩

/-- In a state in which a run begins, every count is 0. -/
theorem runInv_of_runStart {s : State} (h : RunStart s) : RunInv s := by
  obtain ⟨phase, rawIdx, frameCnt, singleIdx, pendValid, evtIdx, prevValid, keptIdx, emitCnt, sigCnt, pairCnt, contCnt,
    errWordcount, errOdd, out⟩ := h
  have empty {d : Diag} (hd : d.cnt = 0) (b : Nat) : DiagInv d b := by
    obtain ⟨cnt, sample⟩ := d
    cases hd
    exact DiagInv.empty sample b
  refine ⟨⟨?_, ?_, ?_, ?_, ?_, ?_, ?_, ?_⟩, ⟨?_, ?_, ?_, empty sigCnt _, empty pairCnt _, empty contCnt _⟩,
    ⟨?_, ?_, ?_, ?_, ?_, ?_⟩⟩ <;> simp [*]

theorem runInv_closes {s t : State} (h : RunInv s) (hd : phaseDone s.phase = false) (hst : Closes s t) : RunInv t := by
  obtain ⟨⟨frame, singles, events, kept, emitted, outLength, words, prevValid⟩,
    ⟨prev, outBelow, outRising, sig, pair, cont⟩, phases⟩ := h
  obtain ⟨hw, ho⟩ := phases.no_error hd
  rcases hst with ⟨hc, rfl⟩ | ⟨hc, hp, rfl⟩ | ⟨hc, hp, rfl⟩
  all_goals refine ⟨⟨frame, singles, events, kept, emitted, outLength, words, prevValid⟩,
    ⟨prev, outBelow, outRising, sig, pair, cont⟩, ?_⟩
  · have hne : s.frameCnt.toNat ≠ 0 := fun h0 => hc (BitVec.eq_of_toNat_eq h0)
    constructor <;> simp [ho, hne]
  · constructor <;> simp [hw, hc, hp]
  · constructor <;> simp [hw, ho, hc, hp]

theorem runInv_pushWord {w : Word} {s t : State} (h : RunInv s) (hst : pushWord w s = .next t) : RunInv t := by
  rcases pushWord_next hst with ⟨-, rfl⟩ | ⟨hd, hr, hcases⟩
  · exact h.of_frame s.cfg true none s.input
  obtain ⟨hw, ho⟩ := h.phases.no_error hd
  obtain ⟨hcount, hpos, -⟩ := h
  have ⟨prev, outBelow, outRising, sig, pair, cont⟩ := hpos
  rcases hcases with ⟨-, rfl⟩ | ⟨-, ⟨hc, rfl⟩ | ⟨hc, hp, rfl⟩ | ⟨hc, hp, he, rfl⟩⟩
  · exact ⟨counterInv_afterOutside hcount hr, ⟨prev, outBelow, outRising, sig, pair, cont⟩, phaseInv_of_run rfl hw ho⟩
  · exact ⟨counterInv_afterStored hcount hr hc, ⟨prev, outBelow, outRising, sig, pair, cont⟩, phaseInv_of_run rfl hw ho⟩
  · exact ⟨counterInv_afterSideA hcount hr hc hp,
      positionInv_afterSideA hcount hpos hr hc, phaseInv_of_run rfl hw ho⟩
  · exact ⟨counterInv_afterEvent hcount hr hc hp he,
      positionInv_afterEvent hcount hpos hr hc he, phaseInv_of_run rfl hw ho⟩

/-- Settles O57: run reset starts a run, END sets PHASE and at most one error bit, and a pushed word leaves one of five states. -/
theorem stepKeepsRunInvariant : Obligations.StepKeepsRunInvariant := fun _ _ hs h =>
  step_keeps (fun _ cfg cmdErr resp input hu => hu.of_frame cfg cmdErr resp input)
    (fun u _ => runInv_of_runStart (runStart_resetRunState u)) (fun _ _ => runInv_closes)
    (fun _ _ _ => runInv_pushWord) hs h

/-! ### Reset -/

theorem runStart_resetOf (b : Build) : RunStart (State.resetOf b) := by
  constructor <;> rfl

/-- Settles O55: right after reset a run begins, and no record is readable. -/
theorem invariantsHoldAtReset : Obligations.InvariantsHoldAtReset := fun b =>
  ⟨runInv_of_runStart (runStart_resetOf b), by constructor <;> simp [State.resetOf]⟩

/-- Settles O9. -/
theorem resetLeavesListedValues : Obligations.ResetLeavesListedValues := by
  rintro b _ rfl
  exact ⟨rfl, rfl, by simp [State.resetOf, cfgReset, enRegReset], fun q => by cases q <;> exact ⟨rfl, rfl, rfl, rfl⟩,
    runStart_resetOf b, rfl, rfl⟩

/-- Settles O10. -/
theorem powerOnResetStep : Obligations.PowerOnResetStep := by
  intro s rest h
  refine ⟨powerOnReset { s with input := rest }, by simp [step, takeItem, h], ?_, rfl, rfl, rfl, rfl, rfl⟩
  constructor <;> rfl

end Sys2Proof.Machine
end

section
/-!
PROOFS. The layouts, the buffer operations of the codec and the pairer (30_encoding.md R82, 40_frame_codec.md R112 to R122,
41_event_codec.md R143), and the host's side of the ports (20_memory.md R61, 30_encoding.md R93, R96).
-/
namespace Sys2Proof.Machine

/-! ### Layouts -/

/-- Settles O36: of the pairs of rows, those in different words are apart, and the others are R82's pairs. -/
theorem layoutCheckIsFieldmapCheck : Obligations.LayoutCheckIsFieldmapCheck := by
  intro l
  rw [Bool.eq_iff_iff, layoutOk_iff]
  simp only [fieldMap, fieldmapCheck, FieldSpec.inWord, FieldSpec.apart, List.cons_append, List.nil_append, List.all_cons,
    List.all_nil, Bool.and_eq_true, Bool.or_eq_true, decide_eq_true_eq, bne_iff_ne, ne_eq, Nat.reduceEqDiff,
    not_true_eq_false, not_false_eq_true, false_or, true_or, and_true]
  omega

/-- Settles O12. -/
theorem onlyWellFormedLayoutsAreBuilt : Obligations.OnlyWellFormedLayoutsAreBuilt := by
  intro b
  rw [layoutCheckIsFieldmapCheck]
  exact ⟨fun h => if_pos h, fun h => if_neg (by simp [h])⟩

/-- R82: fields of 6, 6 and 1 bits fill bits 12:0 of W0 in one of six orders. -/
theorem headerOffsets_iff (m f d : Nat) :
    ((m + 6 ≤ 13 ∧ f + 6 ≤ 13 ∧ d + 1 ≤ 13) ∧ (m + 6 ≤ f ∨ f + 6 ≤ m) ∧ (m + 6 ≤ d ∨ d + 1 ≤ m) ∧
      (f + 6 ≤ d ∨ d + 1 ≤ f)) ↔
    (m, f, d) ∈ [(0, 6, 12), (0, 7, 6), (6, 0, 12), (7, 0, 6), (1, 7, 0), (7, 1, 0)] := by
  simp only [List.mem_cons, Prod.mk.injEq, List.not_mem_nil, or_false]
  constructor
  · rintro ⟨hbounds, hmf | hfm, hmd | hdm, hfd | hdf⟩
    · exact .inl (by omega)
    · exact .inr (.inl (by omega))
    · omega
    · exact .inr (.inr (.inr (.inr (.inl (by omega)))))
    · exact .inr (.inr (.inl (by omega)))
    · omega
    · exact .inr (.inr (.inr (.inl (by omega))))
    · exact .inr (.inr (.inr (.inr (.inr (by omega)))))
  · omega

/-- R82: fields of 12 bits and 1 bit fill bits 12:0 of WC in one of two orders. -/
theorem channelOffsets_iff (c h : Nat) :
    ((c + 12 ≤ 13 ∧ h + 1 ≤ 13) ∧ (c + 12 ≤ h ∨ h + 1 ≤ c)) ↔ (c, h) ∈ [(0, 12), (1, 0)] := by
  simp only [List.mem_cons, Prod.mk.injEq, List.not_mem_nil, or_false]
  omega

/-- Settles O37: word by word. -/
theorem twelveWellFormedLayouts : Obligations.TwelveWellFormedLayouts := by
  intro l
  rw [layoutOk_iff, headerOffsets_iff, channelOffsets_iff]

/-! ### Frames of a buffer -/

/-- The words of frames, in order. -/
def wordsOf (fs : List Frame) : List Word := fs.flatMap fun f => f.toList

@[simp] theorem wordsOf_nil : wordsOf [] = [] := rfl

@[simp] theorem wordsOf_cons (f : Frame) (fs : List Frame) : wordsOf (f :: fs) = f.toList ++ wordsOf fs := rfl

theorem wordsOf_concat (fs : List Frame) (f : Frame) : wordsOf (fs ++ [f]) = wordsOf fs ++ f.toList := by
  simp [wordsOf]

@[simp] theorem length_wordsOf (fs : List Frame) : (wordsOf fs).length = 5 * fs.length := by
  induction fs with
  | nil => rfl
  | cons f fs ih => simp [ih]; omega

theorem framesOf_append (f : Frame) (w : List Word) : framesOf (f.toList ++ w) = f :: framesOf w := by
  obtain ⟨⟨l⟩, hl⟩ := f
  match l, hl with
  | [w0, w1, w2, w3, w4], _ => rfl

/-- R62: the frames of whole frames' words are those frames. -/
theorem framesOf_wordsOf (fs : List Frame) : framesOf (wordsOf fs) = fs := by
  induction fs with
  | nil => rfl
  | cons f fs ih => rw [wordsOf_cons, framesOf_append, ih]

/-- R62: a buffer of a multiple of five words is made of whole frames. -/
theorem exists_wordsOf_eq : ∀ {n : Nat} {w : List Word}, w.length = 5 * n → ∃ fs : List Frame, w = wordsOf fs ∧ fs.length = n
  | 0, _, h => ⟨[], List.eq_nil_of_length_eq_zero h, rfl⟩
  | n + 1, w, h => by
    obtain ⟨fs, hfs, hn⟩ := exists_wordsOf_eq (n := n) (w := w.drop 5) (by rw [List.length_drop]; omega)
    have hfive : (w.take 5).toArray.size = 5 := by rw [List.size_toArray, List.length_take]; omega
    exact ⟨⟨_, hfive⟩ :: fs, by rw [wordsOf_cons, ← hfs]; exact (List.take_append_drop 5 w).symm, by simp [hn]⟩

/-- R121: DECODE_BUF of whole frames. -/
theorem decodeBuf_wordsOf (l : Layout) (fs : List Frame) : decodeBuf l (wordsOf fs) = .ok (fs.map (decode5 l)) := by
  simp [decodeBuf, framesOf_wordsOf]

/-! ### Pairing -/

@[simp] theorem unpair_nil : unpair [] = [] := rfl

@[simp] theorem unpair_cons (e : Event) (es : List Event) : unpair (e :: es) = e.a :: e.b :: unpair es := rfl

theorem unpair_append (es es' : List Event) : unpair (es ++ es') = unpair es ++ unpair es' := List.flatMap_append

@[simp] theorem length_unpair (es : List Event) : (unpair es).length = 2 * es.length := by
  induction es with
  | nil => rfl
  | cons e es ih => simp [ih]; omega

/-- R140, R144: the Events stand at their positions, counted from `k`, with status 0. -/
def NumberedFrom (k : Nat) (es : List Event) : Prop :=
  ∀ i (h : i < es.length), es[i].position = BitVec.ofNat 32 (k + i) ∧ es[i].status = 0

theorem NumberedFrom.tail {k : Nat} {e : Event} {es : List Event} (h : NumberedFrom k (e :: es)) :
    NumberedFrom (k + 1) es := fun i hi => by
  have := h (i + 1) (Nat.succ_lt_succ hi)
  rwa [List.getElem_cons_succ, ← Nat.succ_add_eq_add_succ] at this

/-- R143: pairing the Singles of numbered Events gives the Events back. -/
theorem pairFrom_unpair {es : List Event} : ∀ {k : Nat}, NumberedFrom k es → pairFrom k (unpair es) = es := by
  induction es with
  | nil => exact fun _ => rfl
  | cons e es ih =>
    intro k h
    obtain ⟨hpos, hstatus⟩ := h 0 (Nat.succ_pos _)
    rw [unpair_cons, pairFrom, ih h.tail]
    obtain ⟨a, b, position, status⟩ := e
    cases hpos
    cases hstatus
    rfl

/-- R143: the Events of evenly many Singles have those Singles on their sides. -/
theorem unpair_pairFrom (k : Nat) (xs : List Single) (h : xs.length % 2 = 0) : unpair (pairFrom k xs) = xs := by
  induction k, xs using pairFrom.induct with
  | case1 k a b rest ih =>
    rw [pairFrom, unpair_cons, ih (by simp at h; omega)]
  | case2 xs k hshort =>
    match xs, h with
    | [], _ => rfl
    | a :: b :: rest, _ => exact (hshort a b rest rfl).elim

theorem pair_of_even {xs : List Single} (h : xs.length % 2 = 0) : pair xs = .ok (pairFrom 0 xs) :=
  if_neg (by omega)

/-- The first part of R143. -/
theorem exists_pair {xs : List Single} (h : xs.length % 2 = 0) :
    ∃ es, pair xs = .ok es ∧ unpair es = xs ∧ es.length = xs.length / 2 := by
  have hunpair := unpair_pairFrom 0 xs h
  refine ⟨_, pair_of_even h, hunpair, ?_⟩
  have hlen := congrArg List.length hunpair
  rw [length_unpair] at hlen
  omega

theorem pair_unpair {es : List Event} (h : NumberedFrom 0 es) : pair (unpair es) = .ok es := by
  rw [pair_of_even (by simp), pairFrom_unpair h]

/-- Settles O43. -/
theorem pairAndUnpairAreInverse : Obligations.PairAndUnpairAreInverse :=
  ⟨fun _ => exists_pair, fun es h => pair_unpair fun k hk => by simpa using h k hk⟩

/-- R118, frame by frame. -/
theorem serialize_eq {l : Layout} (h : layoutOk l = true) {es : List Event} {fs : List Frame}
    (hes : unpair es = fs.map (decode5 l)) : serialize l es = wordsOf fs := by
  rw [serialize, hes, List.flatMap_map, wordsOf]
  simp only [encodeOfDecodedFrameIsFrame l _ h]

/-- Settles O42: the buffer is whole frames, evenly many, and each is encoded again as it was. -/
theorem serializeOfDecodedBufferIsBuffer : Obligations.SerializeOfDecodedBufferIsBuffer := by
  intro l w h hlen
  obtain ⟨fs, rfl, hn⟩ := exists_wordsOf_eq (n := w.length / 5) (w := w) (by omega)
  rw [length_wordsOf] at hlen
  obtain ⟨es, hpair, hunpair, hes⟩ := exists_pair (xs := fs.map (decode5 l)) (by rw [List.length_map]; omega)
  refine ⟨_, es, decodeBuf_wordsOf l fs, hpair, ?_, serialize_eq h hunpair⟩
  rw [hes, List.length_map, length_wordsOf]
  omega

/-! ### Bytes -/

/-- R61: the little byte order as a number. -/
theorem wordOfBytes_little (b0 b1 : Byte) : wordOfBytes .little b0 b1 = BitVec.ofNat 16 (b0.toNat + 256 * b1.toNat) := by
  apply BitVec.eq_of_toNat_eq
  rw [wordOfBytes, toNat_append_eq_add, BitVec.toNat_ofNat]
  omega

/-- R61: the big byte order as a number. -/
theorem wordOfBytes_big (b0 b1 : Byte) : wordOfBytes .big b0 b1 = BitVec.ofNat 16 (256 * b0.toNat + b1.toNat) := by
  apply BitVec.eq_of_toNat_eq
  rw [wordOfBytes, toNat_append_eq_add, BitVec.toNat_ofNat]
  omega

theorem wordsOfBytes_bytesOfWord (o : ByteOrder) (w : Word) (bs : List Byte) :
    wordsOfBytes o (bytesOfWord o w ++ bs) = (wordsOfBytes o bs).map fun ws => w :: ws := by
  have hw : w.extractLsb' 8 8 ++ w.extractLsb' 0 8 = w := by
    apply BitVec.eq_of_toNat_eq
    simp only [toNat_append_eq_add, BitVec.extractLsb'_toNat, Nat.shiftRight_eq_div_pow]
    omega
  cases o <;> simp only [bytesOfWord, List.cons_append, List.nil_append, wordsOfBytes, wordOfBytes, hw]

/-- R61: words turned into bytes and back. -/
theorem wordsOfBytes_bytesOfWords (o : ByteOrder) (ws : List Word) : wordsOfBytes o (bytesOfWords o ws) = some ws := by
  induction ws with
  | nil => rfl
  | cons w ws ih =>
    change wordsOfBytes o (bytesOfWord o w ++ bytesOfWords o ws) = _
    rw [wordsOfBytes_bytesOfWord, ih, Option.map_some]

/-- Settles O44. -/
theorem byteOrderRoundTrip : Obligations.ByteOrderRoundTrip := by
  refine ⟨fun b0 b1 rest => ?_, fun b0 b1 rest => ?_, fun _ _ => ⟨rfl, rfl⟩, wordsOfBytes_bytesOfWords⟩
  · rw [wordsOfBytes, wordOfBytes_little]
  · rw [wordsOfBytes, wordOfBytes_big]

/-! ### Thresholds and bounds -/

theorem toInt_clampBound (z : Int) : (BitVec.ofInt 32 (clampBound z)).toInt = clampBound z := by
  unfold clampBound
  exact BitVec.toInt_ofInt_eq_self (by decide) (by omega) (by omega)

/-- R93: clamping to the signed range moves no bound across a field value. -/
theorem clampBound_le_iff {v : Nat} (h : v ≤ 16380) (z : Int) : clampBound z ≤ v ↔ z ≤ v := by
  unfold clampBound
  omega

theorem le_clampBound_iff {v : Nat} (h : v ≤ 16380) (z : Int) : v ≤ clampBound z ↔ v ≤ z := by
  unfold clampBound
  omega

/-- Settles O53: ceil and floor keep the same integers as the threshold. -/
theorem hostThresholdsKeepSameValues : Obligations.HostThresholdsKeepSameValues := by
  intro t v h
  rw [hostLowerBound, hostUpperBound, toInt_clampBound, toInt_clampBound, clampBound_le_iff h, le_clampBound_iff h,
    Int.ceil_le, Int.le_floor, Int.cast_natCast]
  exact ⟨Iff.rfl, Iff.rfl⟩

/-- R96: the DATA of a bound at an integer, read as a register. -/
theorem enRegOf_enabledAt (v : Int) : enRegOf (enabledAt v) = { en := true, val := BitVec.ofInt 32 v } := by
  unfold enRegOf enabledAt
  congr 1
  · rw [BitVec.getLsbD_append]
    rfl
  · exact BitVec.extractLsb'_append_eq_right

theorem cfgRegOf_cfgSelOf (r : CfgReg) : cfgRegOf (cfgSelOf r) = some r := by
  cases r with
  | lo q | hi q => cases q <;> rfl
  | delayed | flagged | preBegin | preEnd | postBegin | postEnd | layoutId | id => rfl

theorem cfgWrite_cfgSelOf (c : Cfg) (r : CfgReg) (data : BitVec 40) : cfgWrite c (cfgSelOf r) data = writeCfg c r data := by
  rw [cfgWrite, cfgRegOf_cfgSelOf]

/-- R244: a legal write outside RUN. -/
theorem exec_wrcfg {r : CfgReg} {data : BitVec 40} {s : State} {c : Cfg} (hrun : s.phase ≠ .run)
    (hc : writeCfg s.cfg r data = some c) :
    exec (.wrcfg (cfgSelOf r) data) s = .next { s with cfg := c, resp := none } := by
  simp only [exec, execWrcfg, if_neg hrun, cfgWrite_cfgSelOf, hc]

/-- R96: the line of a bound register with an integer. -/
theorem assemble_bound (l : Layout) {r : CfgReg} {q : Quantity} (hr : r = .lo q ∨ r = .hi q) (v : Int) :
    assemble l (.wrcfg (cfgSelOf r) (.int v)) = some [.wrcfg (cfgSelOf r) (enabledAt v)] := by
  rcases hr with rfl | rfl <;> simp only [assemble, asmData, cfgRegOf_cfgSelOf, Option.map_some]

/-- Settles O54: an integer of the range is its own 32 bits. -/
theorem assembledBoundIsTheInteger : Obligations.AssembledBoundIsTheInteger := by
  intro l q upper v s hrun hlo hhi
  have hv : (BitVec.ofInt 32 v).toInt = v := BitVec.toInt_ofInt_eq_self (by decide) hlo hhi
  cases upper with
  | false =>
    exact ⟨_, { s.cfg with lo := s.cfg.lo.set q (enRegOf (enabledAt v)) }, assemble_bound l (.inl rfl) v,
      exec_wrcfg (r := .lo q) hrun rfl, by simp [Bank.get_set, enRegOf_enabledAt, hv]⟩
  | true =>
    exact ⟨_, { s.cfg with hi := s.cfg.hi.set q (enRegOf (enabledAt v)) }, assemble_bound l (.inr rfl) v,
      exec_wrcfg (r := .hi q) hrun rfl, by simp [Bank.get_set, enRegOf_enabledAt, hv]⟩

/-! ### The crops, one element after another -/

/-- R200: one more element is kept where its index is inside the window. -/
theorem crop_concat {α : Type} (xs : List α) (x : α) (lo hi : Option Nat) :
    crop (xs ++ [x]) lo hi =
      crop xs lo hi ++ if lo.getD 0 ≤ xs.length ∧ xs.length < hi.getD (xs.length + 1) then [x] else [] := by
  have hdrop (ys : List α) (h : ys.length = xs.length) :
      (ys ++ [x]).drop (lo.getD 0) = ys.drop (lo.getD 0) ++ if lo.getD 0 ≤ xs.length then [x] else [] := by
    split
    · rw [List.drop_append_of_le_length (by omega)]
    · rw [List.drop_eq_nil_of_le (by simp; omega), List.drop_eq_nil_of_le (by omega), List.append_nil]
  unfold crop
  by_cases hin : xs.length < hi.getD (xs.length + 1)
  · have hall : xs.take (hi.getD xs.length) = xs := List.take_of_length_le (by cases hi <;> simp at hin ⊢; omega)
    rw [List.take_of_length_le (by cases hi <;> simp at hin ⊢; omega), hall, hdrop xs rfl]
    simp only [hin, and_true]
  · cases hi with
    | none => simp at hin
    | some n =>
      simp only [Option.getD_some] at hin ⊢
      rw [List.take_append_of_le_length (by omega), if_neg (by omega), List.append_nil]

/-- An enabled crop register is kept to, a disabled one keeps every index. -/
theorem inWindow_iff_cropBound (k n : Nat) (b e : EnReg) :
    ((cropBound k b).getD 0 ≤ n ∧ n < (cropBound k e).getD (n + 1)) ↔
      ((!b.en || decide (k * b.val.toNat ≤ n)) && (!e.en || decide (n < k * e.val.toNat))) = true := by
  unfold cropBound
  cases b.en <;> cases e.en <;> simp

/-- R201: one more raw word. -/
theorem preCrop_concat (c : Cfg) (raw : List Word) (w : Word) :
    preCrop c (raw ++ [w]) = preCrop c raw ++ if inPre c raw.length then [w] else [] := by
  rw [preCrop, crop_concat]
  simp only [inWindow_iff_cropBound]
  rfl

/-- R202: one more kept Event. -/
theorem postCrop_concat (c : Cfg) (es : List Event) (e : Event) :
    postCrop c (es ++ [e]) = postCrop c es ++ if inPost c es.length then [e] else [] := by
  rw [postCrop, crop_concat]
  simp only [inWindow_iff_cropBound, one_mul]
  rfl

/-- Settles O49, word after word. -/
theorem preCropKeepsWordsInWindow : Obligations.PreCropKeepsWordsInWindow := by
  intro c raw
  induction raw using List.reverseRecOn with
  | nil => simp [preCrop, crop]
  | append_singleton raw w ih =>
    rw [preCrop_concat, List.zipIdx_append, List.filter_append, List.map_append, ← ih]
    cases h : inPre c raw.length <;> simp [h]

end Sys2Proof.Machine
end

section
/-!
PROOFS. The push of a word (44_stream_control.md R246 to R250): what each of its cases leaves, in the terms of the rules.
-/
namespace Sys2Proof.Machine

/-! ### The word's class and the signature check -/

/-- R85, R161: a check value is expected at an index, or the sentinel 5, exactly where its class is legal there. -/
theorem sigOk_eq_legalAtIndex (k : Fin 5) (c : BitVec 3) (p : BitVec 13) :
    sigOk k c = (classOf c p).legalAtIndex k := by
  obtain ⟨n, hn, rfl⟩ : ∃ n, n < 8 ∧ c = BitVec.ofNat 3 n := ⟨c.toNat, c.isLt, by simp⟩
  fin_cases k <;> interval_cases n <;> rfl

/-- Settles O41. -/
theorem signatureTestFollowsWordClass : Obligations.SignatureTestFollowsWordClass := by
  intro l w k
  rw [decode5_check, getElem_decodeCheck, decodeFrameWord_eq, ← sigOk_eq_legalAtIndex]
  rfl

/-- R162 by word classes. -/
theorem sigchkSingle_decode5 (l : Layout) (f : Frame) (base : Nat) :
    sigchkSingle (decode5 l f) base = framingPlaces f base := by
  simp only [sigchkSingle, framingPlaces, signatureTestFollowsWordClass l f]

/-! ### The five cases -/

/-- Settles O20: both are the push of the same word. -/
theorem frameWordIsPushOfThatWord : Obligations.FrameWordIsPushOfThatWord := by
  intro i w sel high s h
  have hlow : (high ++ w).extractLsb' 0 16 = w := BitVec.extractLsb'_append_eq_right
  rw [exec_of_pushedWord s h, exec_of_pushedWord (i := .push sel (high ++ w)) s (congrArg some hlow)]

theorem TakesWords.phaseDone {s : State} (h : TakesWords s) : phaseDone s.phase = false := phaseDone_eq_false.2 h.1

theorem TakesWords.rawIdx_ne {s : State} (h : TakesWords s) : s.rawIdx.toNat ≠ nRawMax := h.2.ne

/-- Settles O21. -/
theorem pushOutsideWindowOnlyCounts : Obligations.PushOutsideWindowOnlyCounts := by
  intro i w s hw ht hout
  rw [← inPre_iff, Bool.not_eq_true] at hout
  rw [exec_of_pushedWord s hw, pushWord_outside ht.phaseDone ht.rawIdx_ne hout]
  rfl

theorem getElem_bufAfter (w : Word) (s : State) (k : Fin 5) :
    (bufAfter w s)[k] = if k.val = s.frameCnt.toNat then w else s.frameBuf[k] := by
  rw [bufAfter, Fin.getElem_fin, Vector.getElem_setIfInBounds]
  simp only [eq_comm]
  rfl

/-- Settles O22. -/
theorem pushStoresWordOfFrame : Obligations.PushStoresWordOfFrame := by
  intro i w s hw ht hin hc
  rw [← inPre_iff] at hin
  exact ⟨afterStored w s, (exec_of_pushedWord s hw).trans (pushWord_stored ht.phaseDone ht.rawIdx_ne hin hc), rfl,
    getElem_bufAfter w s⟩

theorem bufAfter_of_four {s : State} (hc : s.frameCnt = 4) (w : Word) : bufAfter w s = s.frameBuf.set 4 w :=
  vector_ext_fin fun k => by
    rw [getElem_bufAfter, hc, Fin.getElem_fin, Fin.getElem_fin, Vector.getElem_set]
    simp only [eq_comm]
    rfl

/-- Settles O23: the decoded frame's signature check by word classes. -/
theorem pushCompletesSideA : Obligations.PushCompletesSideA := by
  rintro i w s _ hw ht hin hc hp rfl
  rw [← inPre_iff] at hin
  rw [exec_of_pushedWord s hw, pushWord_sideA ht.phaseDone ht.rawIdx_ne hin (by simp [hc]) hp, ← bufAfter_of_four hc,
    ← sigchkSingle_decode5 s.build.layout]
  rfl

theorem emits_iff (e : Event) (s : State) : emits e s = true ↔ Kept s.cfg e ∧ InFinalWindow s.cfg s.keptIdx.toNat := by
  rw [emits, Bool.and_eq_true, keep_iff, inPost_iff]

/-- R164: DIAG[PAIR] is recorded in exactly for a collision. -/
theorem pairDiag_eq (e : Event) (s : State) :
    (Collides e → pairDiag e s = recordIn s.diagPair (e.position.setWidth 36)) ∧
      (¬ Collides e → pairDiag e s = s.diagPair) := by
  rw [← pairBad_iff]
  exact ⟨fun h => if_pos h, fun h => if_neg h⟩

/-- R171: DIAG[CONT] is recorded in exactly for a break after a previous Event. -/
theorem contDiag_eq (e : Event) (s : State) :
    (s.prevValid = true ∧ ¬ Continues s.build.holdMarkerCmp s.prev e →
        contDiag e s = recordIn s.diagCont (e.position.setWidth 36)) ∧
      (s.prevValid = false ∨ Continues s.build.holdMarkerCmp s.prev e → contDiag e s = s.diagCont) := by
  rw [← contOk_iff]
  constructor
  · rintro ⟨hp, hbreak⟩
    simp [contDiag, hp, hbreak]
  · rintro (hp | hcont) <;> simp [contDiag, *]

/-- Settles O24: the state `afterEvent`, each of its conditional fields by the verdict that decides it. -/
theorem pushCompletesEvent : Obligations.PushCompletesEvent := by
  intro i w s f e hw ht hin hc hp he hf hevent
  rw [← inPre_iff] at hin
  rw [← bufAfter_of_four hc] at hf
  subst hf
  change e = eventAfter w s at hevent
  subst hevent
  rw [← sigchkSingle_decode5 s.build.layout]
  obtain ⟨hcollides, hapart⟩ := pairDiag_eq (eventAfter w s) s
  obtain ⟨hbreak, hcont⟩ := contDiag_eq (eventAfter w s) s
  have hkeep := keep_iff s.cfg (eventAfter w s)
  have hemits := emits_iff (eventAfter w s) s
  refine ⟨afterEvent w s, (exec_of_pushedWord s hw).trans
    (pushWord_event ht.phaseDone ht.rawIdx_ne hin (by simp [hc]) hp he), rfl, rfl, hcollides, hapart, hbreak, hcont,
    fun hdrop => ?_, fun hkept => ?_, fun hkept hwin => ?_, fun hkept hwin => ?_⟩
  · have hno : emits (eventAfter w s) s ≠ true := fun h => hdrop (hemits.1 h).1
    exact ⟨if_neg (hdrop ∘ hkeep.1), if_neg hno, if_neg hno⟩
  · exact if_pos (hkeep.2 hkept)
  · have hyes := hemits.2 ⟨hkept, hwin⟩
    exact ⟨if_pos hyes, if_pos hyes⟩
  · have hno : emits (eventAfter w s) s ≠ true := fun h => hwin (hemits.1 h).2
    exact ⟨if_neg hno, if_neg hno⟩

/-! ### RECORD -/

theorem take_append_take {α : Type} (n : Nat) (xs ys : List α) : (xs.take n ++ ys).take n = (xs ++ ys).take n := by
  rcases Nat.le_total xs.length n with h | h
  · rw [List.take_of_length_le h]
  · rw [List.take_append_of_le_length (by simpa using h), List.take_append_of_le_length h, List.take_take, min_self]

/-- R250: the valid samples after one more violation. -/
theorem take_sample_recordIn {d : Diag} (p : BitVec 36) :
    (recordIn d p).sample.toList.take (d.cnt.toNat + 1) = (d.sample.toList.take d.cnt.toNat ++ [p]).take 5 := by
  have hlen : d.sample.toList.length = 5 := d.sample.length_toList
  change (if d.cnt.toNat < 5 then d.sample.setIfInBounds d.cnt.toNat p else d.sample).toList.take _ = _
  split
  · rw [Vector.toList_setIfInBounds, List.take_add_one, List.take_set_of_le le_rfl, List.getElem?_set_self (by omega),
      Option.toList_some, List.take_of_length_le (i := 5) (by simp; omega)]
  · rw [List.take_of_length_le (by omega), List.take_of_length_le (i := d.cnt.toNat) (by omega),
      List.take_append_of_le_length (by omega), List.take_of_length_le (by omega)]

/-- R250: one more violation is counted, and reported among the first five. -/
theorem diagReport_recordIn {d : Diag} {p : Nat} (hcnt : d.cnt.toNat + 1 < 2 ^ 36) (hp : p < 2 ^ 36) :
    diagReport (recordIn d (BitVec.ofNat 36 p)) =
      { count := d.cnt.toNat + 1, samples := ((diagReport d).samples ++ [p]).take 5 } := by
  have hpos : (BitVec.ofNat 36 p).toNat = p := Nat.mod_eq_of_lt hp
  rw [diagReport, toNat_cnt_recordIn _ hcnt, take_sample_recordIn, List.map_take, List.map_append, List.map_singleton, hpos]
  rfl

/-- R250: a list of violations, counted, and reported among the first five. -/
theorem diagReport_recordList {ps : List Nat} : ∀ {d : Diag}, d.cnt.toNat + ps.length < 2 ^ 36 → (∀ p ∈ ps, p < 2 ^ 36) →
    diagReport (recordList d ps) =
      { count := d.cnt.toNat + ps.length, samples := ((diagReport d).samples ++ ps).take 5 } := by
  induction ps with
  | nil =>
    intro d _ _
    rw [recordList_nil, List.append_nil, List.take_of_length_le]
    · rfl
    · simp [diagReport]
  | cons p ps ih =>
    intro d hcnt hps
    obtain ⟨hp, hrest⟩ := List.forall_mem_cons.1 hps
    rw [List.length_cons] at hcnt ⊢
    have hone := diagReport_recordIn (d := d) (by omega) hp
    have hcount : (recordIn d (BitVec.ofNat 36 p)).cnt.toNat = d.cnt.toNat + 1 := congrArg Report.count hone
    rw [recordList_cons, ih (by omega) hrest, hone, hcount, take_append_take, List.append_assoc, List.singleton_append,
      Nat.add_assoc, Nat.add_comm 1]

/-- Settles O25. -/
theorem recordKeepsFirstFivePositions : Obligations.RecordKeepsFirstFivePositions := by
  intro c ps s hcnt hps
  rw [recordAll_diag, diagReport_recordList hcnt hps]

end Sys2Proof.Machine
end

section
/-!
PROOFS. What one instruction can do (44_stream_control.md R241 to R253, 60_exceptions.md R303 to R309): its effects, each named
once, and what each leaves unchanged.
-/
namespace Sys2Proof.Machine

/-! ### The effects of an instruction -/

/-- Everything the meaning of an instruction can be in the state `s`. -/
inductive Effect (s : State) : Instr → Outcome → Prop where
  /-- an illegal command -/
  | illegal {i : Instr} {b : Bool} : Illegal s i → (i.WellFormed → b = i.reads) → Effect s i (.next (Machine.illegal b s))
  /-- NOP, or a legal read -/
  | respond {i : Instr} (r : Option Resp) : ¬ Illegal s i → i.isResetRun = false → i.pushedWord = none →
      Effect s i (.next (Machine.respond r s))
  /-- RESET_RUN -/
  | reset (sel : BitVec 8) (data : BitVec 40) : Effect s (.resetRun sel data) (.next (resetRunState s))
  /-- a legal WRCFG -/
  | write {sel : BitVec 8} {data : BitVec 40} (c : Cfg) : ¬ Illegal s (.wrcfg sel data) →
      Effect s (.wrcfg sel data) (.next { s with cfg := c, resp := none })
  /-- END of a run -/
  | close (sel : BitVec 8) (data : BitVec 40) {t : State} : phaseDone s.phase = false → Closes s t →
      Effect s (.endRun sel data) (.next t)
  /-- a word of a run -/
  | push {i : Instr} {w : Word} {o : Outcome} : i.pushedWord = some w → phaseDone s.phase = false → pushWord w s = o →
      Effect s i o

theorem illegal_iff_phaseDone {i : Instr} {w : Word} (s : State) (h : i.pushedWord = some w) :
    Illegal s i ↔ phaseDone s.phase = true := by
  rw [phaseDone_eq_true]
  cases i with
  | push | fwHdr | fwCha | fwChb | fwChc | fwChd | fwDummy | fwRsv6 | fwRsv7 => exact Iff.rfl
  | nop | resetRun | wrcfg | rdcfg | endRun | rddiag | rdstat | reservedOpc => cases h

/-- What a reading command answers does not depend on the state where it is illegal, and else not on the response before. -/
theorem exec_reads {i : Instr} (h : i.reads = true) :
    (∀ s, Illegal s i ∧ exec i s = .next (illegal true s)) ∨
    ∃ v : State → Resp, ∀ s, ¬ Illegal s i ∧ exec i s = .next (respond (some (v s)) s) ∧ ∀ r, v (respond r s) = v s := by
  cases i with
  | rdcfg sel data =>
    by_cases hsel : sel.toNat ∈ readableSelects
    · obtain ⟨r, hr⟩ := Option.isSome_iff_exists.1 ((cfgRegOf_isSome sel).2 hsel)
      exact .inr ⟨fun s => readCfg s.build s.cfg r, fun s => ⟨not_not.2 hsel, exec_rdcfg hr rfl data, fun _ => rfl⟩⟩
    · exact .inl fun s => ⟨hsel, exec_rdcfg_reserved hsel data s⟩
  | rddiag sel data =>
    cases hsel : diagSelOf sel with
    | none =>
      have hbad := (diagSelOf_eq_none sel).1 hsel
      exact .inl fun s => ⟨hbad, exec_rddiag_reserved hbad data s⟩
    | some ct =>
      have hgood := (diagSelOf_eq_none sel).not.1 (by simp [hsel])
      exact .inr ⟨fun s => readDiag (s.diag ct.1) ct.2, fun s => ⟨hgood, exec_rddiag hsel data s,
        fun r => by obtain ⟨c, t⟩ := ct; cases c <;> rfl⟩⟩
  | rdstat sel data =>
    cases hsel : statItemOf sel with
    | none =>
      have hbad := (statItemOf_eq_none sel).1 hsel
      exact .inl fun s => ⟨hbad, exec_rdstat_reserved hbad data s⟩
    | some t =>
      have hgood := (statItemOf_eq_none sel).not.1 (by simp [hsel])
      exact .inr ⟨fun s => readStat s t, fun s => ⟨hgood, exec_rdstat hsel rfl data, fun r => by cases t <;> rfl⟩⟩
  | nop | resetRun | wrcfg | push | endRun | reservedOpc | fwHdr | fwCha | fwChb | fwChc | fwChd | fwDummy | fwRsv6
  | fwRsv7 => cases h

/-- The meaning of every instruction is one of the effects. -/
theorem exec_effect (i : Instr) (s : State) : Effect s i (exec i s) := by
  have push {i : Instr} {w : Word} (hw : i.pushedWord = some w) : Effect s i (exec i s) := by
    rw [exec_of_pushedWord s hw]
    cases hd : phaseDone s.phase with
    | false => exact .push hw hd rfl
    | true =>
      rw [pushWord_done hd]
      refine .illegal ((illegal_iff_phaseDone s hw).2 hd) fun _ => ?_
      cases i with
      | push | fwHdr | fwCha | fwChb | fwChc | fwChd | fwDummy | fwRsv6 | fwRsv7 => rfl
      | nop | resetRun | wrcfg | rdcfg | endRun | rddiag | rdstat | reservedOpc => cases hw
  have reads {i : Instr} (hr : i.reads = true) (hreset : i.isResetRun = false) (hw : i.pushedWord = none) :
      Effect s i (exec i s) := by
    rcases exec_reads hr with hbad | ⟨v, hgood⟩
    · obtain ⟨hillegal, e⟩ := hbad s
      rw [e]
      exact .illegal hillegal fun _ => hr.symm
    · obtain ⟨hlegal, e, -⟩ := hgood s
      rw [e]
      exact .respond _ hlegal hreset hw
  cases i with
  | nop sel data => exact .respond none not_false rfl rfl
  | resetRun sel data => exact .reset sel data
  | wrcfg sel data =>
    change Effect s _ (execWrcfg sel data s)
    rcases execWrcfg_cases sel data s with ⟨hbad, e⟩ | ⟨hrun, c, hc, e⟩
    · rw [e]
      rw [cfgWrite_eq_none] at hbad
      exact .illegal hbad fun _ => rfl
    · rw [e]
      exact .write c (not_or.2 ⟨hrun, by simp [← cfgWrite_eq_none s.cfg, hc]⟩)
  | endRun sel data =>
    change Effect s _ (execEndRun sel data s)
    rcases execEndRun_cases sel data s with ⟨hd, e⟩ | ⟨hd, ⟨hc, e⟩ | ⟨hc, hp, e⟩ | ⟨hc, hp, e⟩⟩
    · rw [e]
      exact .illegal (phaseDone_eq_true.1 hd) fun _ => rfl
    · rw [e]
      exact .close sel data hd (.inl ⟨hc, rfl⟩)
    · rw [e]
      exact .close sel data hd (.inr (.inl ⟨hc, hp, rfl⟩))
    · rw [e]
      exact .close sel data hd (.inr (.inr ⟨hc, hp, rfl⟩))
  | reservedOpc opc sel rsv data =>
    exact .illegal trivial fun h => opcReads_of_reserved (of_decide_eq_true h)
  | rdcfg | rddiag | rdstat => exact reads rfl rfl rfl
  | push | fwHdr | fwCha | fwChb | fwChc | fwChd | fwDummy | fwRsv6 | fwRsv7 => exact push rfl

/-- The effect of an instruction that goes on. -/
theorem exec_next_effect {i : Instr} {s t : State} (h : exec i s = .next t) : Effect s i (.next t) := h ▸ exec_effect i s

/-! ### Illegal commands -/

/-- Settles O14. -/
theorem reservedOpcodeSetsCmdErr : Obligations.ReservedOpcodeSetsCmdErr := by
  intro opc sel rsv data s h
  change Host.Outcome.next (illegal (opcReads opc) s) = _
  rw [opcReads_of_reserved h]
  rfl

/-- Settles O26: an effect under an illegal command is that of `illegal`. -/
theorem illegalCommandOnlySetsCmdErr : Obligations.IllegalCommandOnlySetsCmdErr := by
  intro i s hwf hbad
  have h := exec_effect i s
  generalize exec i s = o at h
  cases h with
  | illegal _ hb => rw [hb hwf]; rfl
  | respond _ hlegal => exact absurd hbad hlegal
  | reset => exact hbad.elim
  | write _ hlegal => exact absurd hbad hlegal
  | close _ _ hd => simp [phaseDone_eq_true.2 hbad] at hd
  | push hw hd => simp [(illegal_iff_phaseDone s hw).1 hbad] at hd

/-- A word of a run leaves one of four states. -/
theorem pushWord_next_of_run {w : Word} {s t : State} (hd : phaseDone s.phase = false) (h : pushWord w s = .next t) :
    t = afterOutside s ∨ t = afterStored w s ∨ t = afterSideA w s ∨ t = afterEvent w s := by
  rcases pushWord_next h with ⟨hd', -⟩ | ⟨-, -, ⟨-, rfl⟩ | ⟨-, ⟨-, rfl⟩ | ⟨-, -, rfl⟩ | ⟨-, -, -, rfl⟩⟩⟩
  · simp [hd] at hd'
  · exact .inl rfl
  · exact .inr (.inl rfl)
  · exact .inr (.inr (.inl rfl))
  · exact .inr (.inr (.inr rfl))

theorem isResetRun_of_pushedWord {i : Instr} {w : Word} (h : i.pushedWord = some w) : i.isResetRun = false := by
  cases i with
  | push | fwHdr | fwCha | fwChb | fwChc | fwChd | fwDummy | fwRsv6 | fwRsv7 => rfl
  | nop | resetRun | wrcfg | rdcfg | endRun | rddiag | rdstat | reservedOpc => cases h

/-- A word of a run keeps CMD_ERR. -/
theorem cmdErr_of_pushWord {w : Word} {s t : State} (hd : phaseDone s.phase = false) (h : pushWord w s = .next t) :
    t.cmdErr = s.cmdErr := by
  rcases pushWord_next_of_run hd h with rfl | rfl | rfl | rfl <;> rfl

theorem Closes.cmdErr_eq {s t : State} (h : Closes s t) : t.cmdErr = s.cmdErr := by
  rcases h with ⟨-, rfl⟩ | ⟨-, -, rfl⟩ | ⟨-, -, rfl⟩ <;> rfl

/-- R42: what one instruction does to CMD_ERR. -/
theorem exec_next_cmdErr {i : Instr} {s t : State} (h : exec i s = .next t) :
    t.cmdErr = true ↔ i.isResetRun = false ∧ (s.cmdErr = true ∨ Illegal s i) := by
  cases exec_next_effect h with
  | illegal hbad =>
    have hreset : i.isResetRun = false := by
      cases i with
      | resetRun => exact hbad.elim
      | nop | wrcfg | rdcfg | push | endRun | rddiag | rdstat | reservedOpc | fwHdr | fwCha | fwChb | fwChc | fwChd
      | fwDummy | fwRsv6 | fwRsv7 => rfl
    simp [hbad, hreset]
  | respond _ hlegal hreset => simp [hlegal, hreset]
  | reset => simp [Instr.isResetRun]
  | write _ hlegal => simp [hlegal, Instr.isResetRun]
  | close sel data hd hclose =>
    have hlegal : ¬ Illegal s (.endRun sel data) := fun hbad => by simp [phaseDone_eq_true.2 hbad] at hd
    simp [hclose.cmdErr_eq, hlegal, Instr.isResetRun]
  | push hw hd hpush =>
    simp [cmdErr_of_pushWord hd hpush, illegal_iff_phaseDone s hw, hd, isResetRun_of_pushedWord hw]

/-- The command's legality does not depend on what the host issues after it. -/
theorem illegal_withInput_iff (s : State) (rest : List HostItem) (i : Instr) : Illegal { s with input := rest } i ↔ Illegal s i := by
  cases i <;> exact Iff.rfl

/-- Settles O27: reset, a rejected word and a decoded one, each by what it does to CMD_ERR. -/
theorem cmdErrIsStickyAndExact : Obligations.CmdErrIsStickyAndExact := by
  refine ⟨rfl, fun s t item rest hin h => ?_⟩
  rcases step_next h with ⟨hnil, -⟩ | ⟨rest', hin', rfl⟩ | ⟨p, rest', err, b, hin', hd, rfl⟩ | ⟨p, rest', i, hin', hd, hi⟩
  · simp [hin] at hnil
  · obtain ⟨rfl, rfl⟩ := List.cons.inj (hin.symm.trans hin')
    simp
  · obtain ⟨rfl, rfl⟩ := List.cons.inj (hin.symm.trans hin')
    simp [hd]
  · obtain ⟨rfl, rfl⟩ := List.cons.inj (hin.symm.trans hin')
    rw [exec_next_cmdErr hi, illegal_withInput_iff]
    simp [hd]

/-! ### Refusals -/

/-- Settles O28: `pushWord_cases`; no other effect stops. -/
theorem onlyCapacityIsRefused : Obligations.OnlyCapacityIsRefused := by
  intro i s
  cases hw : i.pushedWord with
  | none =>
    have hnext : ∃ t, exec i s = .next t := by
      have h := exec_effect i s
      generalize exec i s = o at h
      cases h with
      | push hpushed => simp [hw] at hpushed
      | illegal | respond | reset | write | close => exact ⟨_, rfl⟩
    obtain ⟨t, ht⟩ := hnext
    simp [ht]
  | some w =>
    rw [exec_of_pushedWord s hw, ← phaseDone_eq_false, ← inPre_iff]
    rcases pushWord_cases w s with ⟨hd, e⟩ | ⟨hd, hr, e⟩ | ⟨hd, hr, ⟨hin, e⟩ | ⟨hin, ⟨hc, e⟩ | ⟨hc, ⟨hp, e⟩ |
      ⟨hp, he, e⟩ | ⟨hp, he, e⟩⟩⟩⟩ <;> rw [e]
    · simp [hd]
    · simp [hd, hr]
    · simp [hr, hin]
    · simp [hr, hc]
    · simp [hr, hp]
    · simp [hd, hin, hp, he, not_lt.1 hc]
    · simp [hr, he]

/-! ### Frames -/

/-- Settles O29: `illegal` marks, END fails, and a word of a run records. -/
theorem oneCommandOneKindOfEvent : Obligations.OneCommandOneKindOfEvent := by
  intro i s t hreset h
  cases exec_next_effect h with
  | illegal | respond | write => simp
  | reset => cases hreset
  | close _ _ hd hclose => rcases hclose with ⟨-, rfl⟩ | ⟨-, -, rfl⟩ | ⟨-, -, rfl⟩ <;> simp
  | push hw hd hpush =>
    rcases pushWord_next_of_run hd hpush with rfl | rfl | rfl | rfl <;>
      simp [afterOutside, afterStored, afterSideA, afterEvent]

/-- Settles O30: the same select reads the same value again, or is illegal again. -/
theorem readsAreIdempotent : Obligations.ReadsAreIdempotent := by
  intro i s t hr h
  rcases exec_reads hr with hbad | ⟨v, hgood⟩
  · obtain ⟨hillegal, e⟩ := hbad s
    cases e.symm.trans h
    exact ⟨rfl, fun hlegal => absurd hillegal hlegal, (hbad _).2⟩
  · obtain ⟨-, e, hv⟩ := hgood s
    cases e.symm.trans h
    refine ⟨rfl, fun _ => rfl, ?_⟩
    rw [(hgood _).2.1, hv]
    rfl

/-- Settles O33: after END a word and END are illegal, and the other effects but run reset are the three the claim names. -/
theorem runIsFinalAfterEnd : Obligations.RunIsFinalAfterEnd := by
  intro i s t hdone hreset h
  rw [← phaseDone_eq_true] at hdone
  cases exec_next_effect h with
  | illegal | respond | write => rfl
  | reset => cases hreset
  | close _ _ hd | push _ hd => simp [hdone] at hd

/-- Settles O34: only a completed Event changes OUT. -/
theorem onlyPushedWordsEmit : Obligations.OnlyPushedWordsEmit := by
  intro i s t hreset h
  cases exec_next_effect h with
  | illegal | respond | write => exact .inl rfl
  | reset => cases hreset
  | close _ _ hd hclose => rcases hclose with ⟨-, rfl⟩ | ⟨-, -, rfl⟩ | ⟨-, -, rfl⟩ <;> exact .inl rfl
  | @push _ w _ hw hd hpush =>
    rcases pushWord_next_of_run hd hpush with rfl | rfl | rfl | rfl
    · exact .inl rfl
    · exact .inl rfl
    · exact .inl rfl
    · have hout : (afterEvent w s).out = if emits (eventAfter w s) s then s.out ++ [eventAfter w s] else s.out := rfl
      rw [hout]
      split
      · exact .inr ⟨_, w, rfl, hw⟩
      · exact .inl rfl

/-- R302: in DONE_ERR the result is the error of the one bit that is set. -/
theorem result_of_doneErr {s : State} (h : PhaseInv s) (herr : s.phase = .doneErr) :
    s.result = some (.error (if s.errWordcount = true then .wordcount else .odd)) := by
  unfold State.result
  rcases h.errIff.1 herr with hw | ho
  · simp [herr, hw]
  · have hw : s.errWordcount = false := by simpa [ho] using h.notBoth
    simp [herr, hw, ho]

/-- Settles O35. -/
theorem resultIsDefinedAfterEnd : Obligations.ResultIsDefinedAfterEnd := by
  refine fun s h => ⟨?_, result_of_doneErr h⟩
  cases hp : s.phase with
  | idle | run | doneOk => simp [State.result, hp]
  | doneErr => simp [result_of_doneErr h hp]

end Sys2Proof.Machine
end

section
/-!
PROOFS. Noninterference (10_state.md R49, 60_exceptions.md R305): two states that a relation calls alike answer every step alike,
where the relation leaves the control of the machine equal and each effect keeps it.
-/
namespace Sys2Proof.Machine

/-! ### Steps of two states -/

/-- The fields that decide which case of a meaning applies are equal. -/
structure SameControl (s t : State) : Prop where
  input : t.input = s.input
  cfg : t.cfg = s.cfg
  phase : t.phase = s.phase
  rawIdx : t.rawIdx = s.rawIdx
  frameCnt : t.frameCnt = s.frameCnt
  pendValid : t.pendValid = s.pendValid
  evtIdx : t.evtIdx = s.evtIdx

/-- The push of a word agrees where each of its cases does. -/
theorem pushWord_agree {R : State → State → Prop} {s t : State} (w : Word) (hst : SameControl s t)
    (hillegal : R (illegal false s) (illegal false t)) (houtside : R (afterOutside s) (afterOutside t))
    (hstored : s.frameCnt.toNat < 4 → R (afterStored w s) (afterStored w t))
    (hsideA : ¬ s.frameCnt.toNat < 4 → R (afterSideA w s) (afterSideA w t))
    (hevent : ¬ s.frameCnt.toNat < 4 → s.pendValid = true → R (afterEvent w s) (afterEvent w t)) :
    OutcomesAgree R (pushWord w s) (pushWord w t) := by
  have hphase := hst.phase
  have hraw := hst.rawIdx
  have hcnt := hst.frameCnt
  have hpend := hst.pendValid
  have hevt := hst.evtIdx
  have hcfg := hst.cfg
  rcases pushWord_cases w s with ⟨hd, e⟩ | ⟨hd, hr, e⟩ | ⟨hd, hr, ⟨hin, e⟩ | ⟨hin, ⟨hc, e⟩ | ⟨hc, ⟨hp, e⟩ |
    ⟨hp, he, e⟩ | ⟨hp, he, e⟩⟩⟩⟩ <;> rw [e]
  · rw [pushWord_done (by rwa [hphase])]
    exact hillegal
  · rw [pushWord_rawFull (by rwa [hphase]) (by rwa [hraw])]
    rfl
  · rw [pushWord_outside (by rwa [hphase]) (by rwa [hraw]) (by rwa [hcfg, hraw])]
    exact houtside
  · rw [pushWord_stored (by rwa [hphase]) (by rwa [hraw]) (by rwa [hcfg, hraw]) (by rwa [hcnt])]
    exact hstored hc
  · rw [pushWord_sideA (by rwa [hphase]) (by rwa [hraw]) (by rwa [hcfg, hraw]) (by rwa [hcnt]) (by rwa [hpend])]
    exact hsideA hc
  · rw [pushWord_evtFull (by rwa [hphase]) (by rwa [hraw]) (by rwa [hcfg, hraw]) (by rwa [hcnt]) (by rwa [hpend])
      (by rwa [hevt])]
    rfl
  · rw [pushWord_event (by rwa [hphase]) (by rwa [hraw]) (by rwa [hcfg, hraw]) (by rwa [hcnt]) (by rwa [hpend])
      (by rwa [hevt])]
    exact hevent hc hp

/-- A relation that leaves the control equal and that each effect keeps. -/
structure Simulation (R : State → State → Prop) : Prop where
  control : ∀ {s t}, R s t → SameControl s t
  input : ∀ {s t}, R s t → ∀ rest, R { s with input := rest } { t with input := rest }
  illegal : ∀ {s t}, R s t → ∀ b, R (illegal b s) (illegal b t)
  respond : ∀ {s t}, R s t → ∀ r, R (respond r s) (respond r t)
  write : ∀ {s t}, R s t → ∀ c, R { s with cfg := c, resp := none } { t with cfg := c, resp := none }
  reset : ∀ {s t}, R s t → R (resetRunState s) (resetRunState t)
  raise : ∀ {s t}, R s t → ∀ kind, R (raiseMalformed kind s) (raiseMalformed kind t)
  finish : ∀ {s t}, R s t → R { s with phase := .doneOk, resp := none } { t with phase := .doneOk, resp := none }
  read : ∀ {s t}, R s t → ∀ {i}, i.reads = true → OutcomesAgree R (exec i s) (exec i t)
  push : ∀ {s t}, R s t → ∀ w, OutcomesAgree R (pushWord w s) (pushWord w t)

section
variable {R : State → State → Prop} {s t : State}

theorem execWrcfg_agree (hR : Simulation R) (h : R s t) (sel : BitVec 8) (data : BitVec 40) :
    OutcomesAgree R (execWrcfg sel data s) (execWrcfg sel data t) := by
  have hc := hR.control h
  rw [execWrcfg, execWrcfg, hc.phase, hc.cfg]
  split
  · exact hR.illegal h false
  · cases cfgWrite s.cfg sel data with
    | none => exact hR.illegal h false
    | some c =>
      have hwrite := hR.write h c
      rwa [hc.phase] at hwrite

theorem execEndRun_agree (hR : Simulation R) (h : R s t) (sel : BitVec 8) (data : BitVec 40) :
    OutcomesAgree R (execEndRun sel data s) (execEndRun sel data t) := by
  have hc := hR.control h
  rw [execEndRun, execEndRun, hc.phase, hc.frameCnt, hc.pendValid]
  split_ifs
  · exact hR.illegal h false
  · exact hR.raise h .wordcount
  · exact hR.raise h .odd
  · have hfinish := hR.finish h
    rwa [hc.frameCnt, hc.pendValid] at hfinish

theorem exec_agree (hR : Simulation R) (h : R s t) (i : Instr) : OutcomesAgree R (exec i s) (exec i t) := by
  cases i with
  | nop => exact hR.respond h none
  | resetRun => exact hR.reset h
  | wrcfg sel data => exact execWrcfg_agree hR h sel data
  | endRun sel data => exact execEndRun_agree hR h sel data
  | reservedOpc opc => exact hR.illegal h (opcReads opc)
  | rdcfg | rddiag | rdstat => exact hR.read h rfl
  | push | fwHdr | fwCha | fwChb | fwChc | fwChd | fwDummy | fwRsv6 | fwRsv7 => exact hR.push h _

/-- Two states a simulation relates answer a step alike. -/
theorem step_agree (hR : Simulation R) (h : R s t) : OutcomesAgree R (step s) (step t) := by
  have hc := hR.control h
  unfold step takeItem
  rw [hc.input]
  cases s.input with
  | nil => exact h
  | cons item rest =>
    have hrest := hR.input h rest
    cases item with
    | powerOnReset => exact hR.write (hR.reset hrest) cfgReset
    | word p =>
      cases hd : decode p with
      | ok i =>
        simp only [hd]
        exact exec_agree hR hrest i
      | error err =>
        simp only [hd]
        cases err with
        | rsvNonzero opc => exact hR.illegal hrest (opcReads opc)

end

/-! ### The diagnostics -/

/-- `s` with other diagnostics and another response. -/
def withDiagnostics (s : State) (sig pair cont : Diag) (resp : Option Resp) : State :=
  { s with diagSig := sig, diagPair := pair, diagCont := cont, resp := resp }

theorem sameButDiagnostics_iff {s t : State} :
    SameButDiagnostics s t ↔ ∃ sig pair cont resp, t = withDiagnostics s sig pair cont resp := by
  constructor
  · exact fun h => ⟨_, _, _, _, h⟩
  · rintro ⟨sig, pair, cont, resp, rfl⟩
    rfl

/-- A legal or illegal read leaves all but CMD_ERR and the response. -/
theorem exec_read_sameButDiagnostics {s t : State} (h : SameButDiagnostics s t) {i : Instr} (hr : i.reads = true) :
    OutcomesAgree SameButDiagnostics (exec i s) (exec i t) := by
  obtain ⟨sig, pair, cont, resp, rfl⟩ := sameButDiagnostics_iff.1 h
  rcases exec_reads hr with hbad | ⟨v, hgood⟩
  · rw [(hbad _).2, (hbad _).2]
    exact rfl
  · rw [(hgood _).2.1, (hgood _).2.1]
    exact rfl

theorem simulation_sameButDiagnostics : Simulation SameButDiagnostics := by
  constructor
  case read => exact exec_read_sameButDiagnostics
  case raise =>
    intro s t h kind
    obtain ⟨sig, pair, cont, resp, rfl⟩ := sameButDiagnostics_iff.1 h
    cases kind <;> exact rfl
  case push =>
    intro s t h w
    obtain ⟨sig, pair, cont, resp, rfl⟩ := sameButDiagnostics_iff.1 h
    exact pushWord_agree w ⟨rfl, rfl, rfl, rfl, rfl, rfl, rfl⟩ rfl rfl (fun _ => rfl) (fun _ => rfl) (fun _ _ => rfl)
  case control =>
    intro s t h
    obtain ⟨sig, pair, cont, resp, rfl⟩ := sameButDiagnostics_iff.1 h
    exact ⟨rfl, rfl, rfl, rfl, rfl, rfl, rfl⟩
  all_goals
    intro s t h
    obtain ⟨sig, pair, cont, resp, rfl⟩ := sameButDiagnostics_iff.1 h
    intros
    exact rfl

/-- Settles O59. -/
theorem diagnosticsNeverAffectTheRun : Obligations.DiagnosticsNeverAffectTheRun := fun _ _ =>
  step_agree simulation_sameButDiagnostics

/-! ### The guarded contents -/

/-- `s` with other contents where R49 lets no rule read. -/
def withGuarded (s : State) (buf : Frame) (pend : Single) (prev : Event) (sig pair cont : Diag) (n : Nat) : State :=
  { s with
    frameBuf := buf, pendA := pend, prev := prev, diagSig := sig, diagPair := pair, diagCont := cont, freeCtr := n }

theorem exists_withGuarded {s t : State} (h : SameVisible s t) :
    ∃ buf pend prev sig pair cont n, t = withGuarded s buf pend prev sig pair cont n :=
  ⟨_, _, _, _, _, _, _, h.rest⟩

/-- R250: a violation recorded in both. -/
theorem SameDiag.recordIn {d e : Diag} (h : SameDiag d e) (p : BitVec 36) : SameDiag (recordIn d p) (recordIn e p) := by
  obtain ⟨hcnt, hsample⟩ := h
  refine ⟨congrArg (· + 1) hcnt, fun j hj => ?_⟩
  have hle : j.val < d.cnt.toNat + 1 := by
    change j.val < (d.cnt + 1).toNat at hj
    bv_omega
  rw [recordIn_sample d p j hle, recordIn_sample e p j (hcnt ▸ hle), ← hcnt]
  split
  · rfl
  · exact hsample j (by omega)

theorem SameDiag.recordList {ps : List Nat} : ∀ {d e : Diag}, SameDiag d e → SameDiag (recordList d ps) (recordList e ps) := by
  induction ps with
  | nil => exact fun h => h
  | cons p ps ih => exact fun h => ih (h.recordIn _)

theorem sameDiag_empty (v v' : Vector (BitVec 36) 5) : SameDiag { cnt := 0, sample := v } { cnt := 0, sample := v' } :=
  ⟨rfl, fun _ h => absurd h (Nat.not_lt_zero _)⟩

/-- R252: a read of the diagnostics. -/
theorem readDiag_eq_of_sameDiag {d e : Diag} (h : SameDiag d e) (t : DiagItem) : readDiag e t = readDiag d t := by
  obtain ⟨hcnt, hsample⟩ := h
  cases t with
  | count => rw [readDiag, readDiag, hcnt]
  | sample j =>
    rw [readDiag, readDiag, ← hcnt]
    split
    next hj => rw [hsample j hj]
    · rfl

section
variable {s t : State} (h : SameVisible s t)
include h

theorem SameVisible.control : SameControl s t := by
  obtain ⟨buf, pend, prev, sig, pair, cont, n, rfl⟩ := exists_withGuarded h
  exact ⟨rfl, rfl, rfl, rfl, rfl, rfl, rfl⟩

theorem SameVisible.illegal (b : Bool) : SameVisible (illegal b s) (illegal b t) := by
  obtain ⟨buf, pend, prev, sig, pair, cont, n, rfl⟩ := exists_withGuarded h
  exact ⟨rfl, h.frame, h.pend, h.prev, h.sig, h.pair, h.cont⟩

theorem SameVisible.respond (r : Option Resp) : SameVisible (respond r s) (respond r t) := by
  obtain ⟨buf, pend, prev, sig, pair, cont, n, rfl⟩ := exists_withGuarded h
  exact ⟨rfl, h.frame, h.pend, h.prev, h.sig, h.pair, h.cont⟩

theorem SameVisible.reset : SameVisible (resetRunState s) (resetRunState t) := by
  obtain ⟨buf, pend, prev, sig, pair, cont, n, rfl⟩ := exists_withGuarded h
  exact ⟨rfl, fun k hk => absurd hk (Nat.not_lt_zero _), fun hp => Bool.noConfusion hp, fun hp => Bool.noConfusion hp,
    sameDiag_empty _ _, sameDiag_empty _ _, sameDiag_empty _ _⟩

theorem SameVisible.diag (c : Check) : SameDiag (s.diag c) (t.diag c) := by
  cases c with
  | sig => exact h.sig
  | pair => exact h.pair
  | cont => exact h.cont

theorem SameVisible.readCfg_eq (r : CfgReg) : readCfg t.build t.cfg r = readCfg s.build s.cfg r := by
  obtain ⟨buf, pend, prev, sig, pair, cont, n, rfl⟩ := exists_withGuarded h
  rfl

theorem SameVisible.readStat_eq (t' : StatItem) : readStat t t' = readStat s t' := by
  obtain ⟨buf, pend, prev, sig, pair, cont, n, rfl⟩ := exists_withGuarded h
  cases t' <;> rfl

/-- A reading command reads no guarded contents. -/
theorem SameVisible.read {i : Instr} (hr : i.reads = true) : OutcomesAgree SameVisible (exec i s) (exec i t) := by
  cases i with
  | rdcfg sel data =>
    simp only [exec, execRdcfg, h.readCfg_eq]
    cases cfgRegOf sel with
    | none => exact h.illegal true
    | some r => exact h.respond _
  | rddiag sel data =>
    simp only [exec, execRddiag, readDiag_eq_of_sameDiag (h.diag _)]
    cases diagSelOf sel with
    | none => exact h.illegal true
    | some ct => exact h.respond _
  | rdstat sel data =>
    simp only [exec, execRdstat, h.readStat_eq]
    cases statItemOf sel with
    | none => exact h.illegal true
    | some item => exact h.respond _
  | nop | resetRun | wrcfg | push | endRun | reservedOpc | fwHdr | fwCha | fwChb | fwChc | fwChd | fwDummy | fwRsv6
  | fwRsv7 => cases hr

variable (w : Word)

/-- A word is stored at the same place of both buffers. -/
theorem SameVisible.getElem_bufAfter_eq {k : Fin 5} (hk : k.val ≤ s.frameCnt.toNat) :
    (bufAfter w s)[k] = (bufAfter w t)[k] := by
  rw [getElem_bufAfter, getElem_bufAfter, h.control.frameCnt]
  split
  · rfl
  · exact h.frame k (by omega)

/-- A completed frame holds no guarded contents. -/
theorem SameVisible.bufAfter_eq (hc : ¬ s.frameCnt.toNat < 4) : bufAfter w t = bufAfter w s :=
  vector_ext_fin fun k => (h.getElem_bufAfter_eq w (by omega)).symm

theorem SameVisible.singleAfter_eq (hc : ¬ s.frameCnt.toNat < 4) : singleAfter w t = singleAfter w s := by
  rw [singleAfter, h.bufAfter_eq w hc]
  obtain ⟨buf, pend, prev, sig, pair, cont, n, rfl⟩ := exists_withGuarded h
  rfl

theorem SameVisible.eventAfter_eq (hc : ¬ s.frameCnt.toNat < 4) (hp : s.pendValid = true) :
    eventAfter w t = eventAfter w s := by
  rw [eventAfter, eventAfter, h.singleAfter_eq w hc, h.pend hp, h.control.evtIdx]

theorem SameVisible.sigDiag (x : Single) : SameDiag (sigDiag x s) (sigDiag x t) := by
  obtain ⟨buf, pend, prev, sig, pair, cont, n, rfl⟩ := exists_withGuarded h
  exact h.sig.recordList

theorem SameVisible.pairDiag (e : Event) : SameDiag (pairDiag e s) (pairDiag e t) := by
  unfold Machine.pairDiag
  split
  · exact h.pair.recordIn _
  · exact h.pair

/-- R249: PREV is compared only where it is valid. -/
theorem SameVisible.contDiag (e : Event) : SameDiag (contDiag e s) (contDiag e t) := by
  have hcond : (t.prevValid && !contOk t.build.holdMarkerCmp t.prev e) =
      (s.prevValid && !contOk s.build.holdMarkerCmp s.prev e) := by
    obtain ⟨buf, pend, prev, sig, pair, cont, n, rfl⟩ := exists_withGuarded h
    cases hp : s.prevValid with
    | false => simp [withGuarded, hp]
    | true => rw [h.prev hp, withGuarded, hp]
  rw [Machine.contDiag, Machine.contDiag, hcond]
  split
  · exact h.cont.recordIn _
  · exact h.cont

theorem SameVisible.outside : SameVisible (afterOutside s) (afterOutside t) := by
  obtain ⟨buf, pend, prev, sig, pair, cont, n, rfl⟩ := exists_withGuarded h
  exact ⟨rfl, h.frame, h.pend, h.prev, h.sig, h.pair, h.cont⟩

theorem SameVisible.stored (hc : s.frameCnt.toNat < 4) : SameVisible (afterStored w s) (afterStored w t) := by
  have hbuf : ∀ k : Fin 5, k.val < (s.frameCnt + 1).toNat → (bufAfter w s)[k] = (bufAfter w t)[k] := fun k hk =>
    h.getElem_bufAfter_eq w (by bv_omega)
  obtain ⟨buf, pend, prev, sig, pair, cont, n, rfl⟩ := exists_withGuarded h
  exact ⟨rfl, hbuf, h.pend, h.prev, h.sig, h.pair, h.cont⟩

theorem SameVisible.sideA (hc : ¬ s.frameCnt.toNat < 4) : SameVisible (afterSideA w s) (afterSideA w t) := by
  have hsingle := h.singleAfter_eq w hc
  have hsig := h.sigDiag (singleAfter w s)
  obtain ⟨buf, pend, prev, sig, pair, cont, n, rfl⟩ := exists_withGuarded h
  refine ⟨rfl, fun k hk => absurd hk (Nat.not_lt_zero _), fun _ => hsingle.symm, h.prev, ?_, h.pair, h.cont⟩
  rwa [afterSideA, afterSideA, hsingle]

theorem SameVisible.event (hc : ¬ s.frameCnt.toNat < 4) (hp : s.pendValid = true) :
    SameVisible (afterEvent w s) (afterEvent w t) := by
  have hsingle := h.singleAfter_eq w hc
  have hevent := h.eventAfter_eq w hc hp
  have hsig := h.sigDiag (singleAfter w s)
  have hpair := h.pairDiag (eventAfter w s)
  have hcont := h.contDiag (eventAfter w s)
  obtain ⟨buf, pend, prev, sig, pair, cont, n, rfl⟩ := exists_withGuarded h
  generalize ht : afterEvent w (withGuarded s buf pend prev sig pair cont n) = t
  simp only [afterEvent, hevent, hsingle] at ht
  subst ht
  exact ⟨rfl, fun k hk => absurd hk (Nat.not_lt_zero _), fun hp => Bool.noConfusion hp, fun _ => rfl, hsig, hpair, hcont⟩

end

theorem simulation_sameVisible : Simulation SameVisible where
  control := SameVisible.control
  illegal := SameVisible.illegal
  respond := SameVisible.respond
  reset := SameVisible.reset
  read := SameVisible.read
  push h w := pushWord_agree w h.control (h.illegal false) h.outside (h.stored w) (h.sideA w) (h.event w)
  input h rest := by
    obtain ⟨buf, pend, prev, sig, pair, cont, n, rfl⟩ := exists_withGuarded h
    exact ⟨rfl, h.frame, h.pend, h.prev, h.sig, h.pair, h.cont⟩
  write h c := by
    obtain ⟨buf, pend, prev, sig, pair, cont, n, rfl⟩ := exists_withGuarded h
    exact ⟨rfl, h.frame, h.pend, h.prev, h.sig, h.pair, h.cont⟩
  raise h kind := by
    obtain ⟨buf, pend, prev, sig, pair, cont, n, rfl⟩ := exists_withGuarded h
    cases kind <;> exact ⟨rfl, h.frame, h.pend, h.prev, h.sig, h.pair, h.cont⟩
  finish h := by
    obtain ⟨buf, pend, prev, sig, pair, cont, n, rfl⟩ := exists_withGuarded h
    exact ⟨rfl, h.frame, h.pend, h.prev, h.sig, h.pair, h.cont⟩

/-- Settles O58. -/
theorem guardedContentsAreNeverRead : Obligations.GuardedContentsAreNeverRead := fun _ _ =>
  step_agree simulation_sameVisible

end Sys2Proof.Machine
end

section
/-!
PROOFS. Streaming equals batch (44_stream_control.md R264, R265): while the words of a run are pushed, the run state is what the
batch function has computed of the words so far, and END turns it into the batch result.
-/
namespace Sys2Proof.Machine

/-! ### The batch function, one Single or one Event after another -/

/-- R162: the places of the framing violations of a sequence of Singles, five words each. -/
def framingOf (xs : List Single) : List Nat := xs.zipIdx.flatMap fun x => sigchkSingle x.1 (5 * x.2)

theorem framingOf_concat (xs : List Single) (x : Single) :
    framingOf (xs ++ [x]) = framingOf xs ++ sigchkSingle x (5 * xs.length) := by
  simp [framingOf, List.zipIdx_append]

theorem sigchkFrom_eq (k : Nat) (es : List Event) :
    sigchkFrom k es = ((unpair es).zipIdx (2 * k)).flatMap fun x => sigchkSingle x.1 (5 * x.2) := by
  induction es generalizing k with
  | nil => rfl
  | cons e es ih =>
    have ha : 5 * (2 * k) = 10 * k := by ring
    have hb : 5 * (2 * k + 1) = 10 * k + 5 := by ring
    rw [sigchkFrom, ih, unpair_cons, List.zipIdx_cons, List.zipIdx_cons, List.flatMap_cons, List.flatMap_cons, ha, hb,
      List.append_assoc]
    rfl

/-- R163: SIGCHK goes Single by Single. -/
theorem sigchk_eq (es : List Event) : sigchk es = framingOf (unpair es) := sigchkFrom_eq 0 es

/-- R164: the place of an Event whose sides collide. -/
def collisionPlaces (e : Event) : List Nat := if pairBad e then [e.position.toNat] else []

theorem pairchk_concat (es : List Event) (e : Event) : pairchk (es ++ [e]) = pairchk es ++ collisionPlaces e := by
  unfold pairchk collisionPlaces
  rw [List.filter_append, List.map_append]
  cases h : pairBad e <;> simp [h]

/-- R172: the place of an Event that breaks continuity with the one before, if there is one. -/
def breakPlaces (h : HoldMarkerCmp) (prev : Option Event) (e : Event) : List Nat :=
  match prev with
  | none => []
  | some p => if contOk h p e then [] else [e.position.toNat]

theorem contchkFrom_concat (h : HoldMarkerCmp) (p : Event) (es : List Event) (e : Event) :
    contchkFrom h p (es ++ [e]) = contchkFrom h p es ++ breakPlaces h (some (es.getLast?.getD p)) e := by
  induction es generalizing p with
  | nil => exact List.append_nil _
  | cons c es ih =>
    rw [List.cons_append, contchkFrom, ih, contchkFrom, List.append_assoc, List.getLast?_cons]
    rfl

theorem contchk_concat (h : HoldMarkerCmp) (es : List Event) (e : Event) :
    contchk h (es ++ [e]) = contchk h es ++ breakPlaces h es.getLast? e := by
  cases es with
  | nil => rfl
  | cons p es => exact (contchkFrom_concat h p es e).trans (by rw [List.getLast?_cons]; rfl)

theorem filterEvents_concat (c : Cfg) (es : List Event) (e : Event) :
    filterEvents c (es ++ [e]) = filterEvents c es ++ if keep c e then [e] else [] := by
  unfold filterEvents
  rw [List.filter_append]
  cases h : keep c e <;> simp [h]

theorem length_preCrop_le (c : Cfg) (raw more : List Word) : (preCrop c raw).length ≤ (preCrop c (raw ++ more)).length := by
  induction more using List.reverseRecOn with
  | nil => simp
  | append_singleton more w ih =>
    rw [← List.append_assoc, preCrop_concat, List.length_append]
    omega

theorem NumberedFrom.concat {es : List Event} {e : Event} (h : NumberedFrom 0 es)
    (hpos : e.position = BitVec.ofNat 32 es.length) (hstatus : e.status = 0) : NumberedFrom 0 (es ++ [e]) := by
  intro i hi
  rw [List.length_append, List.length_singleton] at hi
  rcases Nat.lt_or_ge i es.length with hlt | hge
  · rw [List.getElem_append_left hlt]
    exact h i hlt
  · obtain rfl : i = es.length := by omega
    simp [hpos, hstatus]

/-! ### Reports -/

/-- R173: a report grows with the violations. -/
theorem diagReport_recordList_of_report {d : Diag} {v ps : List Nat} (hd : diagReport d = report v)
    (hcnt : d.cnt.toNat + ps.length < 2 ^ 36) (hps : ∀ p ∈ ps, p < 2 ^ 36) :
    diagReport (recordList d ps) = report (v ++ ps) := by
  have hcount : d.cnt.toNat = v.length := congrArg Report.count hd
  rw [diagReport_recordList hcnt hps, hd, hcount, report, report, List.length_append]
  exact congrArg (Report.mk _) (take_append_take 5 v ps)

theorem diagReport_of_cnt_eq_zero {d : Diag} (h : d.cnt = 0) : diagReport d = report [] := by
  simp [diagReport, report, h]

theorem pairDiag_eq_recordList (e : Event) (s : State) : pairDiag e s = recordList s.diagPair (collisionPlaces e) := by
  unfold pairDiag collisionPlaces
  split <;> simp

/-- PREV where it is valid. -/
def previous (s : State) : Option Event := if s.prevValid then some s.prev else none

theorem contDiag_eq_recordList (e : Event) (s : State) :
    contDiag e s = recordList s.diagCont (breakPlaces s.build.holdMarkerCmp (previous s) e) := by
  unfold contDiag previous breakPlaces
  cases s.prevValid with
  | false => simp
  | true => cases hcont : contOk s.build.holdMarkerCmp s.prev e <;> simp [hcont]

/-! ### The run state and the words so far -/

/-- PEND_A where it is valid. -/
def pendings (s : State) : List Single := if s.pendValid then [s.pendA] else []

/-- The words of the frame in the making. -/
def partWords (s : State) : List Word := s.frameBuf.toList.take s.frameCnt.toNat

/-- A word stored at FRAME_CNT is one more word of the frame. -/
theorem take_bufAfter (w : Word) {s : State} (hc : s.frameCnt.toNat < 5) :
    (bufAfter w s).toList.take (s.frameCnt.toNat + 1) = partWords s ++ [w] := by
  have hlen : s.frameBuf.toList.length = 5 := s.frameBuf.length_toList
  rw [bufAfter, Vector.toList_setIfInBounds, List.take_add_one, List.take_set_of_le le_rfl,
    List.getElem?_set_self (by omega)]
  rfl

/-- The fifth word completes the frame. -/
theorem toList_bufAfter (w : Word) {s : State} (hc : s.frameCnt.toNat = 4) :
    (bufAfter w s).toList = partWords s ++ [w] := by
  rw [← take_bufAfter w (by omega), List.take_of_length_le (by rw [Vector.length_toList]; omega)]

/-- The run has taken the words `raw`, completed the frames `fs` and formed the Events `es` of them, and it holds what the batch
function makes of them. -/
structure Tracks (s : State) (raw : List Word) (fs : List Frame) (es : List Event) : Prop where
  inv : RunInv s
  live : phaseDone s.phase = false
  rawIdx : s.rawIdx.toNat = raw.length
  accepted : preCrop s.cfg raw = wordsOf fs ++ partWords s
  singles : fs.map (decode5 s.build.layout) = unpair es ++ pendings s
  evtIdx : s.evtIdx.toNat = es.length
  numbered : NumberedFrom 0 es
  prev : previous s = es.getLast?
  keptIdx : s.keptIdx.toNat = (filterEvents s.cfg es).length
  out : s.out = postCrop s.cfg (filterEvents s.cfg es)
  sig : diagReport s.diagSig = report (framingOf (fs.map (decode5 s.build.layout)))
  pair : diagReport s.diagPair = report (pairchk es)
  cont : diagReport s.diagCont = report (contchk s.build.holdMarkerCmp es)

theorem tracks_of_runStart {s : State} (h : RunStart s) : Tracks s [] [] [] where
  inv := runInv_of_runStart h
  live := by rw [h.phase]; rfl
  rawIdx := by simp [h.rawIdx]
  accepted := by simp [preCrop, crop, partWords, h.frameCnt]
  singles := by simp [pendings, h.pendValid]
  evtIdx := by simp [h.evtIdx]
  numbered := fun _ hi => absurd hi (Nat.not_lt_zero _)
  prev := by simp [previous, h.prevValid]
  keptIdx := by simp [h.keptIdx, filterEvents]
  out := by simp [h.out, postCrop, crop, filterEvents]
  sig := diagReport_of_cnt_eq_zero h.sigCnt
  pair := diagReport_of_cnt_eq_zero h.pairCnt
  cont := diagReport_of_cnt_eq_zero h.contCnt

section
variable {s : State} {raw : List Word} {fs : List Frame} {es : List Event} (h : Tracks s raw fs es)
include h

/-- CMD_ERR, the response and the input play no part. -/
theorem Tracks.of_frame (cmdErr : Bool) (resp : Option Resp) (input : List HostItem) :
    Tracks { s with cmdErr := cmdErr, resp := resp, input := input } raw fs es :=
  ⟨h.inv.of_frame s.cfg cmdErr resp input, h.live, h.rawIdx, h.accepted, h.singles, h.evtIdx, h.numbered, h.prev, h.keptIdx,
    h.out, h.sig, h.pair, h.cont⟩

theorem Tracks.length_frames : fs.length = 2 * es.length + (pendings s).length := by
  have := congrArg List.length h.singles
  rwa [List.length_map, List.length_append, length_unpair] at this

/-- R33: SINGLE_IDX counts the frames. -/
theorem Tracks.singleIdx : s.singleIdx.toNat = fs.length := by
  rw [h.inv.counters.singles, h.length_frames, h.evtIdx, pendings]
  cases s.pendValid <;> rfl

theorem Tracks.length_accepted : (preCrop s.cfg raw).length = 5 * fs.length + s.frameCnt.toNat := by
  have := h.inv.counters.frame
  rw [h.accepted, List.length_append, length_wordsOf, partWords, List.length_take, Vector.length_toList]
  omega

/-! ### One more word -/

variable {w : Word}

theorem Tracks.outside (hr : s.rawIdx.toNat ≠ nRawMax) (hin : inPre s.cfg s.rawIdx.toNat = false)
    (hst : pushWord w s = .next (afterOutside s)) : Tracks (afterOutside s) (raw ++ [w]) fs es where
  inv := runInv_pushWord h.inv hst
  live := rfl
  rawIdx := (toNat_rawIdx_succ hr).trans (by rw [h.rawIdx, List.length_append]; rfl)
  accepted := by
    rw [h.rawIdx] at hin
    change preCrop s.cfg (raw ++ [w]) = _
    rw [preCrop_concat, hin, h.accepted]
    exact List.append_nil _
  singles := h.singles
  evtIdx := h.evtIdx
  numbered := h.numbered
  prev := h.prev
  keptIdx := h.keptIdx
  out := h.out
  sig := h.sig
  pair := h.pair
  cont := h.cont

/-- R201: a word inside the window is accepted after those before. -/
theorem Tracks.accepted_concat (hin : inPre s.cfg s.rawIdx.toNat = true) :
    preCrop s.cfg (raw ++ [w]) = wordsOf fs ++ (partWords s ++ [w]) := by
  rw [h.rawIdx] at hin
  rw [preCrop_concat, hin, h.accepted, List.append_assoc]
  rfl

theorem Tracks.stored (hr : s.rawIdx.toNat ≠ nRawMax) (hin : inPre s.cfg s.rawIdx.toNat = true)
    (hc : s.frameCnt.toNat < 4) (hst : pushWord w s = .next (afterStored w s)) :
    Tracks (afterStored w s) (raw ++ [w]) fs es where
  inv := runInv_pushWord h.inv hst
  live := rfl
  rawIdx := (toNat_rawIdx_succ hr).trans (by rw [h.rawIdx, List.length_append]; rfl)
  accepted := by
    have hcnt : (s.frameCnt + 1).toNat = s.frameCnt.toNat + 1 := by bv_omega
    change preCrop s.cfg (raw ++ [w]) = wordsOf fs ++ (bufAfter w s).toList.take (s.frameCnt + 1).toNat
    rw [h.accepted_concat hin, hcnt, take_bufAfter w (by omega)]
  singles := h.singles
  evtIdx := h.evtIdx
  numbered := h.numbered
  prev := h.prev
  keptIdx := h.keptIdx
  out := h.out
  sig := h.sig
  pair := h.pair
  cont := h.cont

theorem Tracks.frameCnt_eq (hc : ¬ s.frameCnt.toNat < 4) : s.frameCnt.toNat = 4 := by
  have := h.inv.counters.frame
  omega

/-- R201: the fifth word completes a frame of accepted words. -/
theorem Tracks.accepted_complete (hin : inPre s.cfg s.rawIdx.toNat = true) (hc : ¬ s.frameCnt.toNat < 4) :
    preCrop s.cfg (raw ++ [w]) = wordsOf (fs ++ [bufAfter w s]) := by
  rw [h.accepted_concat hin, ← toList_bufAfter w (h.frameCnt_eq hc), wordsOf_concat]

/-- R162, R248: the framing violations of one more Single are reported after those before. -/
theorem Tracks.sig_complete (hr : s.rawIdx.toNat ≠ nRawMax) (hc : ¬ s.frameCnt.toNat < 4) :
    diagReport (sigDiag (singleAfter w s) s) =
      report (framingOf ((fs ++ [bufAfter w s]).map (decode5 s.build.layout))) := by
  have hraw := toNat_rawIdx_succ hr
  have hwords := h.inv.counters.words
  have hcount := h.inv.positions.sig.count
  have hlen := length_sigchkSingle_le (singleAfter w s) (5 * s.singleIdx.toNat)
  obtain ⟨-, hmem⟩ := sigchkSingle_mem (singleAfter w s) (5 * s.singleIdx.toNat)
  rw [List.map_append, List.map_singleton, framingOf_concat, List.length_map, ← h.singleIdx]
  refine diagReport_recordList_of_report h.sig (by omega) fun p hp => ?_
  have := hmem p hp
  omega

theorem Tracks.sideA (hr : s.rawIdx.toNat ≠ nRawMax) (hin : inPre s.cfg s.rawIdx.toNat = true)
    (hc : ¬ s.frameCnt.toNat < 4) (hp : s.pendValid = false) (hst : pushWord w s = .next (afterSideA w s)) :
    Tracks (afterSideA w s) (raw ++ [w]) (fs ++ [bufAfter w s]) es where
  inv := runInv_pushWord h.inv hst
  live := rfl
  rawIdx := (toNat_rawIdx_succ hr).trans (by rw [h.rawIdx, List.length_append]; rfl)
  accepted := (h.accepted_complete hin hc).trans (List.append_nil _).symm
  singles := by
    change (fs ++ [bufAfter w s]).map (decode5 s.build.layout) = unpair es ++ [singleAfter w s]
    rw [List.map_append, h.singles, pendings, hp]
    simp [singleAfter]
  evtIdx := h.evtIdx
  numbered := h.numbered
  prev := h.prev
  keptIdx := h.keptIdx
  out := h.out
  sig := h.sig_complete hr hc
  pair := h.pair
  cont := h.cont

/-- The place of the Event about to be formed is recorded or not: either way one more place fits. -/
theorem Tracks.recordList_event (he : s.evtIdx.toNat ≠ nEvtMax) {d : Diag} {v ps : List Nat}
    (hd : DiagInv d s.evtIdx.toNat) (hv : diagReport d = report v)
    (hps : ps = [(eventAfter w s).position.toNat] ∨ ps = []) : diagReport (recordList d ps) = report (v ++ ps) := by
  have hmax : nEvtMax = 2 ^ 32 := rfl
  have hcount := hd.count
  have hevents := h.inv.counters.events
  have hpos := toNat_position_eventAfter (w := w) h.inv.counters he
  rcases hps with rfl | rfl
  · exact diagReport_recordList_of_report hv (by simp; omega) (by simp; omega)
  · exact diagReport_recordList_of_report hv (by simp; omega) (by simp)

theorem Tracks.pair_event (he : s.evtIdx.toNat ≠ nEvtMax) :
    diagReport (pairDiag (eventAfter w s) s) = report (pairchk (es ++ [eventAfter w s])) := by
  rw [pairDiag_eq_recordList, pairchk_concat]
  refine h.recordList_event (w := w) he h.inv.positions.pair h.pair ?_
  unfold collisionPlaces
  split
  · exact .inl rfl
  · exact .inr rfl

theorem Tracks.cont_event (he : s.evtIdx.toNat ≠ nEvtMax) :
    diagReport (contDiag (eventAfter w s) s) = report (contchk s.build.holdMarkerCmp (es ++ [eventAfter w s])) := by
  rw [contDiag_eq_recordList, contchk_concat, h.prev]
  refine h.recordList_event (w := w) he h.inv.positions.cont h.cont ?_
  cases es.getLast? with
  | none => exact .inr rfl
  | some p =>
    unfold breakPlaces
    dsimp only
    split
    · exact .inr rfl
    · exact .inl rfl

theorem Tracks.event (hr : s.rawIdx.toNat ≠ nRawMax) (hin : inPre s.cfg s.rawIdx.toNat = true)
    (hc : ¬ s.frameCnt.toNat < 4) (hp : s.pendValid = true) (he : s.evtIdx.toNat ≠ nEvtMax)
    (hst : pushWord w s = .next (afterEvent w s)) :
    Tracks (afterEvent w s) (raw ++ [w]) (fs ++ [bufAfter w s]) (es ++ [eventAfter w s]) where
  inv := runInv_pushWord h.inv hst
  live := rfl
  rawIdx := (toNat_rawIdx_succ hr).trans (by rw [h.rawIdx, List.length_append]; rfl)
  accepted := (h.accepted_complete hin hc).trans (List.append_nil _).symm
  singles := by
    change (fs ++ [bufAfter w s]).map (decode5 s.build.layout) = unpair (es ++ [eventAfter w s]) ++ []
    rw [List.map_append, h.singles, pendings, hp, unpair_append]
    simp [eventAfter, singleAfter]
  evtIdx := (toNat_evtIdx_succ h.inv.counters he).trans (by rw [h.evtIdx, List.length_append]; rfl)
  numbered := by
    refine h.numbered.concat ?_ rfl
    rw [← h.evtIdx, BitVec.ofNat_toNat]
    rfl
  prev := List.getLast?_concat.symm
  keptIdx := by
    change (if keep s.cfg (eventAfter w s) then s.keptIdx + 1 else s.keptIdx).toNat =
      (filterEvents s.cfg (es ++ [eventAfter w s])).length
    rw [filterEvents_concat, List.length_append, ← h.keptIdx]
    split
    · exact toNat_keptIdx_succ h.inv.counters he
    · rfl
  out := by
    change (if emits (eventAfter w s) s then s.out ++ [eventAfter w s] else s.out) =
      postCrop s.cfg (filterEvents s.cfg (es ++ [eventAfter w s]))
    rw [filterEvents_concat, emits, h.out, h.keptIdx]
    cases keep s.cfg (eventAfter w s) with
    | false => simp
    | true =>
      rw [if_pos rfl, postCrop_concat, Bool.true_and]
      split
      · rfl
      · exact (List.append_nil _).symm
  sig := h.sig_complete hr hc
  pair := h.pair_event he
  cont := h.cont_event he

/-- R246 to R249: one more word of a run within the capacity. -/
theorem Tracks.push (hraw : raw.length < nRawMax) (hevents : (preCrop s.cfg (raw ++ [w])).length / 10 ≤ nEvtMax) :
    ∃ t fs' es', pushWord w s = .next t ∧ Tracks t (raw ++ [w]) fs' es' ∧
      t.build = s.build ∧ t.cfg = s.cfg ∧ t.phase = .run ∧ t.input = s.input := by
  have hr : s.rawIdx.toNat ≠ nRawMax := by rw [h.rawIdx]; exact hraw.ne
  rcases pushWord_cases w s with ⟨hd, -⟩ | ⟨-, hfull, -⟩ | ⟨-, -, ⟨hin, e⟩ | ⟨hin, ⟨hc, e⟩ | ⟨hc, ⟨hp, e⟩ |
    ⟨hp, he, -⟩ | ⟨hp, he, e⟩⟩⟩⟩
  · simp [h.live] at hd
  · exact absurd hfull hr
  · exact ⟨_, fs, es, e, h.outside hr hin e, rfl, rfl, rfl, rfl⟩
  · exact ⟨_, fs, es, e, h.stored hr hin hc e, rfl, rfl, rfl, rfl⟩
  · exact ⟨_, _, es, e, h.sideA hr hin hc hp e, rfl, rfl, rfl, rfl⟩
  · rw [h.accepted_complete hin hc, length_wordsOf, List.length_append, h.length_frames, pendings, hp] at hevents
    simp at hevents
    have := h.evtIdx
    omega
  · exact ⟨_, _, _, e, h.event hr hin hc hp he e, rfl, rfl, rfl, rfl⟩

/-! ### END -/

/-- R121: with no frame in the making the accepted words decode. -/
theorem Tracks.decodeBuf_eq (hc : s.frameCnt = 0) :
    decodeBuf s.build.layout (preCrop s.cfg raw) = .ok (fs.map (decode5 s.build.layout)) := by
  rw [← decodeBuf_wordsOf, h.accepted, partWords, hc]
  exact congrArg _ (List.append_nil _)

theorem Tracks.runBatch_wordcount (hc : s.frameCnt ≠ 0) : runBatch s.build s.cfg raw = .error .wordcount := by
  have hne : s.frameCnt.toNat ≠ 0 := fun h0 => hc (BitVec.eq_of_toNat_eq h0)
  have hle := h.inv.counters.frame
  have hlen : (preCrop s.cfg raw).length % 5 ≠ 0 := by rw [h.length_accepted]; omega
  simp only [runBatch, decodeBuf, if_pos hlen]

theorem Tracks.runBatch_odd (hc : s.frameCnt = 0) (hp : s.pendValid = true) :
    runBatch s.build s.cfg raw = .error .odd := by
  have hodd : (fs.map (decode5 s.build.layout)).length % 2 ≠ 0 := by
    rw [List.length_map, h.length_frames, pendings, if_pos hp, List.length_singleton]
    omega
  simp only [runBatch, h.decodeBuf_eq hc, Machine.pair, if_pos hodd]

theorem Tracks.runBatch_ok (hc : s.frameCnt = 0) (hp : s.pendValid = false) :
    runBatch s.build s.cfg raw = .ok s.out
      { sig := diagReport s.diagSig, pair := diagReport s.diagPair, cont := diagReport s.diagCont } := by
  have hsingles : fs.map (decode5 s.build.layout) = unpair es := by simp [h.singles, pendings, hp]
  simp only [runBatch, h.decodeBuf_eq hc, hsingles, pair_unpair h.numbered, validate, sigchk_eq, h.out, h.sig, h.pair,
    h.cont]

/-- R251, R260: END turns the run state into the batch result. -/
theorem Tracks.finish (sel : BitVec 8) (data : BitVec 40) :
    ∃ t, exec (.endRun sel data) s = .next t ∧ t.result = some (runBatch s.build s.cfg raw) ∧ t.input = s.input := by
  rcases execEndRun_cases sel data s with ⟨hd, -⟩ | ⟨-, ⟨hc, e⟩ | ⟨hc, hp, e⟩ | ⟨hc, hp, e⟩⟩
  · simp [h.live] at hd
  · exact ⟨_, e, by rw [h.runBatch_wordcount hc]; rfl, rfl⟩
  · obtain ⟨hno, -⟩ := h.inv.phases.no_error h.live
    exact ⟨_, e, by simp [h.runBatch_odd hc hp, State.result, hno], rfl⟩
  · exact ⟨_, e, by rw [h.runBatch_ok hc hp]; rfl, rfl⟩

end

/-! ### A session -/

/-- An interleaved instruction changes CMD_ERR and the response alone. -/
theorem exec_interleaved {started : Bool} {i : Instr} {s : State} (hi : Interleaved started i)
    (hrun : started = true → s.phase = .run) :
    ∃ cmdErr resp, exec i s = .next { s with cmdErr := cmdErr, resp := resp } := by
  have reads {i : Instr} (hr : i.reads = true) : ∃ cmdErr resp, exec i s = .next { s with cmdErr := cmdErr, resp := resp } := by
    rcases exec_reads hr with hbad | ⟨v, hgood⟩
    · exact ⟨_, _, (hbad s).2⟩
    · exact ⟨_, _, (hgood s).2.1⟩
  cases i with
  | nop => exact ⟨_, _, rfl⟩
  | reservedOpc => exact ⟨_, _, rfl⟩
  | wrcfg sel data => exact ⟨_, _, (wrcfgWritesOneRegister sel data s).2 (hi.imp_left hrun)⟩
  | rdcfg | rddiag | rdstat => exact reads rfl
  | resetRun | push | endRun | fwHdr | fwCha | fwChb | fwChc | fwChd | fwDummy | fwRsv6 | fwRsv7 => exact hi.elim

theorem run_succ_of_step {s t : State} (h : step s = .next t) (k : Nat) :
    Host.Core.run Sys2Proof.core (k + 1) s = Host.Core.run Sys2Proof.core k t := by
  have hcore : Sys2Proof.core.step s = .next t := h
  simp only [Host.Core.run, hcore]

/-- R265: a session from any point of a run ends in the batch result of the words before it and its own. -/
theorem session_run {started : Bool} {items : List HostItem} {raw : List Word} (hsession : Session started items raw) :
    ∀ {s : State} {tail : List HostItem} {done : List Word} {fs : List Frame} {es : List Event}, Tracks s done fs es →
      (started = true → s.phase = .run) → s.input = items ++ tail → WithinCapacity s.cfg (done ++ raw) →
      ∃ t : State, Host.Core.run Sys2Proof.core items.length s = .next t ∧
        t.result = some (runBatch s.build s.cfg (done ++ raw)) ∧ t.input = tail := by
  induction hsession with
  | finish hd =>
    intro s tail done fs es h _ hin _
    have hstep := step_word_ok hin hd
    obtain ⟨t, ht, hres, htail⟩ := (h.of_frame s.cmdErr s.resp tail).finish _ _
    refine ⟨t, run_succ_of_step (hstep.trans ht) 0, ?_, htail⟩
    rwa [List.append_nil]
  | @push _ p i w items raw hd hw _ ih =>
    intro s tail done fs es h _ hin hcap
    obtain ⟨hraw, hevents⟩ := hcap
    rw [List.append_cons] at hraw hevents
    have hmono := length_preCrop_le s.cfg (done ++ [w]) raw
    obtain ⟨u, fs', es', hu, htracks, hbuild, hcfg, hphase, hinput⟩ :=
      (h.of_frame s.cmdErr s.resp (items ++ tail)).push (w := w) (by simp at hraw; omega)
        ((Nat.div_le_div_right hmono).trans hevents)
    have hstep := (step_word_ok hin hd).trans ((exec_of_pushedWord _ hw).trans hu)
    obtain ⟨t, ht, hres, htail⟩ := ih htracks (fun _ => hphase) hinput (by rw [hcfg]; exact ⟨hraw, hevents⟩)
    refine ⟨t, (run_succ_of_step hstep _).trans ht, ?_, htail⟩
    rwa [List.append_cons, ← hbuild, ← hcfg]
  | @between _ p i items raw hd hi _ ih =>
    intro s tail done fs es h hrun hin hcap
    obtain ⟨cmdErr, resp, hu⟩ := exec_interleaved (s := { s with input := items ++ tail }) hi hrun
    obtain ⟨t, ht, hres⟩ := ih (h.of_frame cmdErr resp (items ++ tail)) hrun rfl hcap
    exact ⟨t, (run_succ_of_step ((step_word_ok hin hd).trans hu) _).trans ht, hres⟩
  | @rejected _ p err items raw hd _ ih =>
    intro s tail done fs es h hrun hin hcap
    have hstep := step_word_error hin hd
    cases err with
    | rsvNonzero opc =>
      obtain ⟨t, ht, hres⟩ := ih (h.of_frame true _ (items ++ tail)) hrun rfl hcap
      exact ⟨t, (run_succ_of_step hstep _).trans ht, hres⟩

/-- Settles O60: `session_run` from the beginning of a run. -/
theorem streamingEqualsBatch : Obligations.StreamingEqualsBatch := by
  constructor
  · intro s items tail raw hstart hin hsession hcap
    exact session_run hsession (tracks_of_runStart hstart) (fun hfalse => Bool.noConfusion hfalse) hin hcap
  · intro started i s t hi hrun h
    obtain ⟨cmdErr, resp, e⟩ := exec_interleaved hi hrun
    cases e.symm.trans h
    rfl

end Sys2Proof.Machine
end
